-- ==== Sys2Proof/Word.lean ====
section
/-!
DEFINITION. The words of the block: every one is an unsigned bit vector, bit 0 the least significant (R12).
-/

namespace Sys2Proof

/-- A state index as `S` holds it: 4 bits, unsigned binary (R20, R62). -/
abbrev StateCode := BitVec 4

/-- The input vector `v` (R60): 3 bits, so all eight values are legal and no other exists (R61). -/
abbrev InVec := BitVec 3

/-- The control word `CW` of a cycle (R66). -/
abbrev ControlWord := BitVec 3

/-- The stimulus word `STIM` of a cycle: the five input ports (R70). -/
abbrev StimWord := BitVec 5

/-- An address of `NS_ROM` (R40, R63). -/
abbrev NsAddr := BitVec 7

/-- An operation with its operand as one word: the control word in bits 2..0, the vector `v` in bits 5..3.
DESIGN CHOICE (safe): the spec numbers the bits of each of the two, and not of the pair (log 10). -/
abbrev InstrWord := BitVec 6

end Sys2Proof
end

