-- ==== Sys2Proof/Config.lean ====
section
/-!
DEFINITION. What an implementation fixes when the block is built (R10, R30): the parameters, the table and the two ROM images
made from it; and the free values, each a constant without a body, so that no proof can see what it is.
-/

namespace Sys2Proof

/-- The parameters of R10 other than the table and the predicates on codes. `SW` is no parameter: the spec fixes it at 4. -/
structure Params where
  lightW : Nat
  pedW : Nat
  dwellW : Nat
  /-- `ACK_W`, the west pedestrian-acknowledge state (R89). -/
  ackW : Nat
  /-- `CROSS`, the pedestrian-crossing state (R89). -/
  cross : Nat
  /-- `FLASH`, the five flashing states in their cycle order (R89). -/
  flash : Vector Nat 5
  /-- `K_PED`, the bound of property P5 (R95). -/
  kPed : Nat
  deriving DecidableEq, Repr

/-- `OW`, the width of a word of `OUT_ROM` (R41). -/
abbrev Params.ow (p : Params) : Nat := p.lightW + p.pedW + p.dwellW

/-- One row of the State Table (R80). `next` holds 4-bit words, so that a table R44 refuses can be written down. -/
structure Row (p : Params) where
  light : BitVec p.lightW
  ped : BitVec p.pedW
  dwell : BitVec p.dwellW
  next : Vector StateCode 8
  deriving DecidableEq, Repr

/-- The parameter `ROM`: the 12 rows (R10, R80). -/
structure Table (p : Params) where
  rows : Vector (Row p) 12
  deriving DecidableEq, Repr

/-- The block as built: its parameters and the populated words of its two ROMs (R31). The words 96..127 of `NS_ROM` and 12..15
of `OUT_ROM` are unpopulated and not held (R40, R41; log 6). -/
structure Build where
  params : Params
  /-- `NS_ROM` (R40): word `8*s + v` is `next[s][v]`. -/
  nsRom : Vector StateCode 96
  /-- `OUT_ROM` (R41): word `s` is `light[s]`, `ped[s]` and `dwell[s]`, `light[s]` most significant. -/
  outRom : Vector (BitVec params.ow) 12
  deriving DecidableEq, Repr

/-- The predicates on output codes (R10, D26). The block never reads a code; only the conformance properties use these. -/
structure CodeDecode (p : Params) where
  greenNS : BitVec p.lightW → Bool
  greenEW : BitVec p.lightW → Bool
  redNS : BitVec p.lightW → Bool
  redEW : BitVec p.lightW → Bool
  walkOn : BitVec p.pedW → Bool

namespace Config

/-! The hardware's own configuration, which no source gives (N2, N5, N7): constants without a body (log 5). -/

/-- `LIGHT_W - 1`: the width is at least 1 (R10). -/
opaque lightWLessOne : Nat

/-- `PED_W - 1`: the width is at least 1 (R10). -/
opaque pedWLessOne : Nat

/-- `DWELL_W - 1`: the width is at least 1 (R10). -/
opaque dwellWLessOne : Nat

/-- Which of the indices 5..11 is `ACK_W`, which is `CROSS` and which five are `FLASH`: pairwise distinct, all seven used (R89). -/
opaque roles : Equiv.Perm (Fin 7)

/-- `K_PED` (R95). -/
opaque kPed : Nat

/-- The next-state entries. Each is a legal index, since the block exists only with a table that passes R44. -/
opaque openNext : Fin 12 → Fin 8 → Fin 12

/-- The traffic-light code of each row, an opaque code of the width (R80). -/
opaque openLight : Fin 12 → (w : Nat) → BitVec w

/-- The pedestrian code of each row, an opaque code of the width (R80). -/
opaque openPed : Fin 12 → (w : Nat) → BitVec w

/-- The dwell of each row (R80). -/
opaque openDwell : Fin 12 → (w : Nat) → BitVec w

/-! Free values, each applied to the cycle number. -/

/-- What the collaborators drive on the five input ports in a cycle for which State lists no stimulus (R123; log 3). -/
opaque stim : Nat → StimWord

/-- `light_out` in a cycle in which it is any value (R36; log 7). -/
opaque freeLight : Nat → (w : Nat) → BitVec w

/-- `ped_out` in a cycle in which it is any value (R36; log 7). -/
opaque freePed : Nat → (w : Nat) → BitVec w

/-- `wait_ticks` in a cycle in which it is any value (R36; log 7). -/
opaque freeTicks : Nat → (w : Nat) → BitVec w

/-- `wait_start` in a cycle in which it is any value (R36; log 7). -/
opaque freeWaitStart : Nat → Bool

/-- `state_q` in a cycle in which it is any value (R36; log 7). -/
opaque freeStateQ : Nat → StateCode

/-- The hardware's parameters, within the constraints of R10. -/
def params : Params where
  lightW := lightWLessOne + 1
  pedW := pedWLessOne + 1
  dwellW := dwellWLessOne + 1
  ackW := 5 + (roles 0).val
  cross := 5 + (roles 1).val
  flash := #v[5 + (roles 2).val, 5 + (roles 3).val, 5 + (roles 4).val, 5 + (roles 5).val, 5 + (roles 6).val]
  kPed := kPed

end Config

end Sys2Proof
end

