-- ==== Sys2Proof/Syntax.lean ====
section
/-!
DEFINITION. The operations of the block, one constructor per row of spec/opcode_table.json (R67).
-/

namespace Sys2Proof

/-- The operation a cycle performs. Only TRANSITION has an operand: the input vector sampled in that cycle (R113). -/
inductive Instr where
  | reset
  | issue
  | waitHold
  | transition (v : InVec)
  deriving DecidableEq, Repr

end Sys2Proof
end

