-- ==== Sys2Proof/WellFormed.lean ====
section
/-!
DEFINITION. What is checked before the block runs: the two build checks of R142, and the operand of an operation.
-/

namespace Sys2Proof

/-- The operand of an operation is in its range. It always is: `v` has exactly 3 bits (R61), so this check has no ill-formed
term. -/
def Instr.wellFormed : Instr → Bool
  | .reset => true
  | .issue => true
  | .waitHold => true
  | .transition v => decide (v.toNat < 8)

/-- The role indices in one list: `ACK_W`, `CROSS`, then `FLASH` (R89). -/
def Params.roleIndices (p : Params) : List Nat :=
  p.ackW :: p.cross :: p.flash.toList

/-- The parameter check behind RF2_BAD_PARAM (R142): every width is at least 1 (R10), and `ACK_W`, `CROSS` and `FLASH` are
pairwise distinct and together exactly the indices 5..11 (R89). -/
def Params.wellFormed (p : Params) : Bool :=
  decide (1 ≤ p.lightW) && decide (1 ≤ p.pedW) && decide (1 ≤ p.dwellW) &&
    decide p.roleIndices.Nodup && p.roleIndices.all fun r => decide (5 ≤ r ∧ r ≤ 11)

/-- `valid(ROM)`, the table check behind RF1_BAD_ROM: every next-state entry is less than 12 (R44, R91). -/
def Build.romValid (b : Build) : Bool :=
  decide (∀ (s : Fin 12) (v : Fin 8), (b.nsRom[8 * s.val + v.val]'(by omega)).toNat < 12)

/-- The configuration is admitted: neither refusal of R142 applies. -/
def Build.wellFormed (b : Build) : Bool := b.params.wellFormed && b.romValid

end Sys2Proof
end

