-- ==== Sys2Proof/Decode.lean ====
section
/-!
DEFINITION. Which operation a cycle performs (R66, R67), the opcode table's rows, and the encoder.
-/

namespace Sys2Proof

/-- `CW = {rst, PH, wait_done}` (R66). -/
def controlWord (rst ph done : Bool) : ControlWord :=
  BitVec.ofBool rst ++ BitVec.ofBool ph ++ BitVec.ofBool done

/-- The operation the control word selects (R67), total over its 8 values; `v` is an operand and selects nothing (R66). -/
def decode (cw : ControlWord) (v : InVec) : Instr :=
  if cw[2] then .reset
  else if !cw[1] then .issue
  else if !cw[0] then .waitHold
  else .transition v

/-- One row of the opcode table: a control word `cw` matches it when `(cw and mask) == match` (R67). -/
structure OpcodeRow where
  mnemonic : String
  pat : ControlWord
  mask : ControlWord
  deriving DecidableEq, Repr

/-- The four rows as R67 and spec/opcode_table.json print them. -/
def opcodeRows : List OpcodeRow :=
  [⟨"RESET", 0b100, 0b100⟩, ⟨"ISSUE", 0b000, 0b110⟩, ⟨"WAIT_HOLD", 0b010, 0b111⟩, ⟨"TRANSITION", 0b011, 0b111⟩]

/-- R67: "A value matches a row when (CW and mask) == match". -/
def OpcodeRow.covers (r : OpcodeRow) (cw : ControlWord) : Bool := cw &&& r.mask == r.pat

/-- The table's name of an operation. -/
def Instr.mnemonic : Instr → String
  | .reset => "RESET"
  | .issue => "ISSUE"
  | .waitHold => "WAIT_HOLD"
  | .transition _ => "TRANSITION"

/-- The control word of an operation word (log 10). -/
def wordControl (w : InstrWord) : ControlWord := w.extractLsb' 0 3

/-- The operand `v` of an operation word (log 10). -/
def wordVector (w : InstrWord) : InVec := w.extractLsb' 3 3

/-- The operation an operation word stands for. Every control word and every vector is legal (R68), so nothing is refused. -/
def decodeWord (w : InstrWord) : Instr := decode (wordControl w) (wordVector w)

/-- The word of an operation: its row's match bits, its operand, and 0 for every bit the row ignores (R67). -/
def encode : Instr → InstrWord
  | .reset => 0#3 ++ 0b100#3
  | .issue => 0#3 ++ 0b000#3
  | .waitHold => 0#3 ++ 0b010#3
  | .transition v => v ++ 0b011#3

/-- Why a number is no operation word. -/
inductive DecodeReject where
  /-- Raised by `decodeNat` for a number with a bit above bit 5: the block has no such wire. Safe. -/
  | tooWide (w : Nat)
  deriving DecidableEq, Repr

/-- The operation a number stands for, read as an operation word; a number of more than 6 bits is rejected by name. -/
def decodeNat (w : Nat) : Except DecodeReject Instr :=
  if w < 64 then .ok (decodeWord (BitVec.ofNat 6 w)) else .error (.tooWide w)

/-- The host's view of the decoder: the operation whose word has the low `nbits` bits of `w`, and 0 above them. -/
def decodeTableWord (nbits w : Nat) : Option Instr :=
  match decodeNat (w % 2 ^ nbits) with
  | .ok i => some i
  | .error _ => none

end Sys2Proof
end

