-- ==== Sys2Proof/Machine/Operands.lean ====
section
/-!
DEFINITION. The packings of the block (R60, R63, R64, R70), the ROM images built from a table (R40, R41), and the reads of the
two ROMs (R14, R42).
-/

namespace Sys2Proof

/-- `v = {in_ped, in_ns, in_ew}` (R60). -/
def packInputs (inPed inNs inEw : Bool) : InVec :=
  BitVec.ofBool inPed ++ BitVec.ofBool inNs ++ BitVec.ofBool inEw

/-- `in_ped = v[2]` (R61). -/
def vecPed (v : InVec) : Bool := v[2]

/-- `in_ns = v[1]` (R61). -/
def vecNs (v : InVec) : Bool := v[1]

/-- `in_ew = v[0]` (R61). -/
def vecEw (v : InVec) : Bool := v[0]

/-- The eight input vectors, in the order of R61's table. -/
def allVecs : List InVec := [0, 1, 2, 3, 4, 5, 6, 7]

/-- `STIM = {rst, wait_done, in_ped, in_ns, in_ew}` (R70). -/
def stimWord (rst done : Bool) (v : InVec) : StimWord :=
  BitVec.ofBool rst ++ BitVec.ofBool done ++ packInputs (vecPed v) (vecNs v) (vecEw v)

/-- The `rst` port of a stimulus word (R70). -/
def stimRst (σ : StimWord) : Bool := σ[4]

/-- The `wait_done` port of a stimulus word (R70). -/
def stimDone (σ : StimWord) : Bool := σ[3]

/-- The input vector sampled from the three input ports of a stimulus word, packed as R60 says (R70, R113). -/
def stimVec (σ : StimWord) : InVec := packInputs σ[2] σ[1] σ[0]

/-- `nsaddr(s, v) = {s[3:0], v[2:0]}` (R63). -/
def nsAddr (s : StateCode) (v : InVec) : NsAddr := s ++ v

/-- `OUT_ROM[s] = {light[s], ped[s], dwell[s]}` (R41, R64). -/
def outWord {lw pw dw : Nat} (light : BitVec lw) (ped : BitVec pw) (dwell : BitVec dw) : BitVec (lw + pw + dw) :=
  light ++ ped ++ dwell

/-- `light[s] = OUT_ROM[s][OW-1 : PED_W+DWELL_W]` (R64). -/
def lightField (lw pw dw : Nat) (w : BitVec (lw + pw + dw)) : BitVec lw := w.extractLsb' (pw + dw) lw

/-- `ped[s] = OUT_ROM[s][PED_W+DWELL_W-1 : DWELL_W]` (R64). -/
def pedField (lw pw dw : Nat) (w : BitVec (lw + pw + dw)) : BitVec pw := w.extractLsb' dw pw

/-- `dwell[s] = OUT_ROM[s][DWELL_W-1 : 0]` (R64). -/
def dwellField (lw pw dw : Nat) (w : BitVec (lw + pw + dw)) : BitVec dw := w.extractLsb' 0 dw

/-- The block built from a table: word `8*s + v` of `NS_ROM` is `next[s][v]` (R40), word `s` of `OUT_ROM` is row s's codes and
dwell (R41). -/
def Build.ofTable (p : Params) (t : Table p) : Build where
  params := p
  nsRom := Vector.ofFn fun a => (t.rows[a.val / 8]).next[a.val % 8]
  outRom := Vector.ofFn fun s => outWord (t.rows[s.val]).light (t.rows[s.val]).ped (t.rows[s.val]).dwell

/-- `MemRead(NS, a, 1)` (R14, R42); no word at the unpopulated addresses 96..127 (R45). -/
def Build.readNs (b : Build) (a : NsAddr) : Option StateCode :=
  if h : a.toNat < 96 then some b.nsRom[a.toNat] else none

/-- `MemRead(OUT, s, 1)` (R14, R42); no word at the unpopulated addresses 12..15 (R45). -/
def Build.readOut (b : Build) (s : StateCode) : Option (BitVec b.params.ow) :=
  if h : s.toNat < 12 then some b.outRom[s.toNat] else none

/-- The table's entries that the source settles: R85 and R86, each a state, a vector and the next state. -/
def settledEntry (s : Fin 12) (v : Fin 8) : Option (Fin 12) :=
  match s.val, v.val with
  | 0, 0 => some 1
  | 1, 0 => some 2
  | 2, 0 => some 3
  | 3, 0 => some 0
  | 0, 4 => some 4
  | _, _ => none

/-- The hardware's table: the settled entries, and for everything else the parameter `ROM`, which no source gives (R8, R10;
log 5). -/
def hardwareTable : Table Config.params where
  rows := Vector.ofFn fun s =>
    { light := Config.openLight s Config.params.lightW
      ped := Config.openPed s Config.params.pedW
      dwell := Config.openDwell s Config.params.dwellW
      next := Vector.ofFn fun v => BitVec.ofNat 4 ((settledEntry s v).getD (Config.openNext s v)).val }

end Sys2Proof
end

