-- ==== Sys2Proof/Machine/TableRom.lean ====
section
/-!
DEFINITION. The combinational functions of the State Table (R81 to R83), as functions of the block as built and a state code.
They answer no word for a code 12..15, where the spec raises MF2 (R45); who asked turns that into the fault.
-/

namespace Sys2Proof

/-- OUTPUT_SELECT, the traffic-light code: `LIGHT(s)` (R81). -/
def Build.light (b : Build) (s : StateCode) : Option (BitVec b.params.lightW) :=
  (b.readOut s).map (lightField b.params.lightW b.params.pedW b.params.dwellW)

/-- OUTPUT_SELECT, the pedestrian code: `PED(s)` (R81). -/
def Build.ped (b : Build) (s : StateCode) : Option (BitVec b.params.pedW) :=
  (b.readOut s).map (pedField b.params.lightW b.params.pedW b.params.dwellW)

/-- DWELL_SELECT: `DWELL(s)`, passed on unchanged, 0 and all ones included (R82, R65). -/
def Build.dwell (b : Build) (s : StateCode) : Option (BitVec b.params.dwellW) :=
  (b.readOut s).map (dwellField b.params.lightW b.params.pedW b.params.dwellW)

/-- NEXT_LOOKUP: `NEXT(s, v)` (R83). Nothing but the ROM decides it (R101). -/
def Build.next (b : Build) (s : StateCode) (v : InVec) : Option StateCode :=
  b.readNs (nsAddr s v)

end Sys2Proof
end

