-- ==== Sys2Proof/Machine/State.lean ====
section
/-!
DEFINITION. The state of the machine as plain data, the model's faults and refusals, and the state after reset.
-/

namespace Sys2Proof.Machine

/-- The phase `PH` holds: ISSUE = 0, WAIT = 1 (R23). -/
inductive Phase where
  | issue
  | wait
  deriving DecidableEq, Repr

/-- The two model faults of R141. Each ends the run. -/
inductive Fault where
  /-- `MF1_UNRESET`, code 1: a step with `rst == 0` while `S` or `PH` is unwritten (R36, R114). Raised by `step` and by ISSUE,
  WAIT_HOLD and TRANSITION. It records the cycle number. Safe: the machine stops where the spec's model stops. -/
  | mf1Unreset (cycle : Nat)
  /-- `MF2_ILLEGAL_STATE`, code 2: a read of `S` holding 12..15 (R21, R45, R114). Raised by ISSUE, WAIT_HOLD, TRANSITION and the
  port drives. It records the cycle number and the value of `S`. Safe: the machine stops where the spec's model stops. -/
  | mf2IllegalState (cycle : Nat) (s : StateCode)
  deriving DecidableEq, Repr

/-- Why the model declines: a configuration the build check refuses (R142), or an operation without a meaning. -/
inductive Refusal where
  /-- Raised by `exec` for an operation that has no meaning yet. Safe. No operation is left so. -/
  | notModelled (mnemonic : String)
  /-- `RF1_BAD_ROM`, code 1: some next-state entry is 12 or more (R44). Raised by `powerUp`, before any step. Safe. -/
  | rf1BadRom
  /-- `RF2_BAD_PARAM`, code 2: a parameter breaks its constraint in R10. Raised by `powerUp`, before any step. Safe. -/
  | rf2BadParam
  deriving DecidableEq, Repr

/-- The block `(S, PH)` with its build-time contents (R33, R31), what the collaborators are to drive, and the cycle number. -/
structure State where
  /-- The block as built: parameters, `NS_ROM` and `OUT_ROM` (R30, R31). No operation writes it (R43). -/
  hw : Build
  /-- The state register; `none` is the spec's "unwritten" before the first reset edge (R20, R36; log 1 and 2). -/
  S : Option StateCode
  /-- The phase register; `none` is the spec's "unwritten" before the first reset edge (R23, R36; log 2). -/
  PH : Option Phase
  /-- The stimulus words the collaborators are to drive, the current cycle's first (R70, R71, R123). Past the end of the list a
  cycle's word is the free value `Config.stim` of its number. DESIGN CHOICE, safe (log 3). -/
  stimulus : List StimWord
  /-- The number of the current cycle (R13), which a model fault records (R141). DESIGN CHOICE, safe (log 4). -/
  cycle : Nat
  deriving DecidableEq, Repr

/-- The state before the first reset edge after power-on: `S` and `PH` unwritten (R36, R155). -/
def State.powerOn (b : Build) : State where
  hw := b
  S := none
  PH := none
  stimulus := []
  cycle := 0

/-- The machine right after its first reset edge: `S == 0` (R34) and `PH == ISSUE` (R35), the ROMs as built (R38). That edge
ended cycle 0, so this is cycle 1 (log 4). -/
def State.reset : State where
  hw := Build.ofTable Config.params hardwareTable
  S := some 0
  PH := some .issue
  stimulus := []
  cycle := 1

end Sys2Proof.Machine
end

