-- ==== Sys2Proof/Machine/Ops.lean ====
section
/-!
DEFINITION. The named operations on the state: the inputs of a cycle, the register writes, the guards every operation but RESET
starts with (R114), the fetch of the cycle's operation, and power-up with its build check (R142, R163).
-/

namespace Sys2Proof.Machine

/-- The bit of `CW` that `PH` supplies: ISSUE = 0, WAIT = 1 (R23, R66). -/
def Phase.bit : Phase → Bool
  | .issue => false
  | .wait => true

/-- The phase a bit stands for (R23). -/
def Phase.ofBit (b : Bool) : Phase := if b then .wait else .issue

/-- The stimulus word of the current cycle (R70, R123). -/
def State.stim (s : State) : StimWord := s.stimulus.headD (Config.stim s.cycle)

/-- The same state with these words to be driven from the current cycle on (R70). -/
def State.drive (s : State) (words : List StimWord) : State := { s with stimulus := words }

/-- The rising edge has passed: the next cycle begins, with the next stimulus word (R13). -/
def State.tick (s : State) : State := { s with stimulus := s.stimulus.tail, cycle := s.cycle + 1 }

/-- A cycle's outcome once its edge has passed: the register writes of the operation, then the next cycle (R13). -/
def endCycle (o : Host.Outcome State Fault Refusal) : Host.Outcome State Fault Refusal :=
  match o with
  | .next t => .next t.tick
  | .fault f => .fault f
  | .refused r => .refused r

/-- `S <- code` and `PH <- ph` at one edge (R13, R48). -/
def State.writeLoop (s : State) (code : StateCode) (ph : Phase) : State := { s with S := some code, PH := some ph }

/-- `PH <- ph`, `S` unchanged (R111). -/
def State.writePhase (s : State) (ph : Phase) : State := { s with PH := some ph }

/-- The guards of R114 in their order, and then `k` with the values of `S` and `PH`: unwritten is MF1, 12..15 is MF2. -/
def State.withLoop (s : State) (k : StateCode → Phase → Host.Outcome State Fault Refusal) : Host.Outcome State Fault Refusal :=
  match s.S, s.PH with
  | some code, some ph => if code.toNat < 12 then k code ph else .fault (.mf2IllegalState s.cycle code)
  | _, _ => .fault (.mf1Unreset s.cycle)

/-- NEXT_LOOKUP in a cycle, and then `k` with the next state: a code 12..15 is MF2 and no word is returned (R45, R83). -/
def State.withNext (s : State) (code : StateCode) (v : InVec) (k : StateCode → Host.Outcome State Fault Refusal) :
    Host.Outcome State Fault Refusal :=
  match s.hw.next code v with
  | some n => k n
  | none => .fault (.mf2IllegalState s.cycle code)

/-- `CW = {rst, PH, wait_done}` of the current cycle (R66). With `PH` unwritten only a reset cycle has one: its row ignores the
bit `PH` would supply (R67; log 12). -/
def State.controlWord (s : State) : Option ControlWord :=
  match s.PH with
  | some ph => some (Sys2Proof.controlWord (stimRst s.stim) ph.bit (stimDone s.stim))
  | none => if stimRst s.stim then some (Sys2Proof.controlWord true false (stimDone s.stim)) else none

/-- The operation of the current cycle (R67), with the vector its inputs hold (R113). -/
def State.fetch (s : State) : Option Instr := s.controlWord.map fun cw => decode cw (stimVec s.stim)

/-- The state in which the current cycle performs the operation whose word is `w` (log 10, 11): `PH` and the five input ports
are what the word says. -/
def State.placeWord (s : State) (w : InstrWord) : State :=
  { s with
    PH := some (Phase.ofBit (wordControl w)[1])
    stimulus := stimWord (wordControl w)[2] (wordControl w)[0] (wordVector w) :: s.stimulus.tail }

/-- The block is inside a request that the Timing Source holds exactly when `PH` is WAIT, whatever `S` is (R32). -/
def State.insideRequest (s : State) : Bool := decide (s.PH = some .wait)

/-- The ticks of the outstanding request: `DWELL(S)` inside one (R32, R111), none outside one. DESIGN CHOICE, safe (log 20): none
also with `PH` WAIT and `S` unwritten or 12..15, which no run reaches: a request is outstanding there (`State.insideRequest`), but
there is no `DWELL(S)` to say for how long. -/
def State.outstandingRequest (s : State) : Option (BitVec s.hw.params.dwellW) :=
  match s.S, s.PH with
  | some code, some .wait => s.hw.dwell code
  | _, _ => none

/-- Building and powering the block (R163, steps 1 and 2): a configuration that fails a check of R142 is refused before any step,
and an admitted one stands in the unwritten state (R36). Where both checks fail, RF1 is answered (DESIGN CHOICE, safe, log 15). -/
def powerUp (p : Params) (t : Table p) : Host.Outcome State Fault Refusal :=
  if !(Build.ofTable p t).romValid then .refused .rf1BadRom
  else if !p.wellFormed then .refused .rf2BadParam
  else .next (State.powerOn (Build.ofTable p t))

/-- The code of a model fault (R141). -/
def Fault.code : Fault → Nat
  | .mf1Unreset _ => 1
  | .mf2IllegalState _ _ => 2

/-- The code of a refused configuration (R142). -/
def Refusal.code : Refusal → Option Nat
  | .rf1BadRom => some 1
  | .rf2BadParam => some 2
  | _ => none

end Sys2Proof.Machine
end

