-- ==== Sys2Proof/Machine/ControlLoop.lean ====
section
/-!
DEFINITION. The four operations of the control loop (R110 to R113). Which one a cycle performs is the fetch's choice (R67); an
operation does not look at the control word again (log 9).
-/

namespace Sys2Proof.Machine

/-- RESET (R110): `S <- 0`, `PH <- ISSUE`, from every state. -/
def execReset (s : State) : Host.Outcome State Fault Refusal := .next (s.writeLoop 0 .issue)

/-- ISSUE (R111): `PH <- WAIT`. Its request, `wait_start` and `wait_ticks`, is driven in the cycle itself (Machine/Ports.lean). -/
def execIssue (s : State) : Host.Outcome State Fault Refusal :=
  s.withLoop fun _ _ => .next (s.writePhase .wait)

/-- WAIT_HOLD (R112): no write. That `S` in 12..15 faults here too is R114 (log 8). -/
def execWaitHold (s : State) : Host.Outcome State Fault Refusal :=
  s.withLoop fun _ _ => .next s

/-- TRANSITION (R113): `S <- NEXT(S, v)`, `PH <- ISSUE`. -/
def execTransition (v : InVec) (s : State) : Host.Outcome State Fault Refusal :=
  s.withLoop fun code _ => s.withNext code v fun n => .next (s.writeLoop n .issue)

end Sys2Proof.Machine
end

