-- ==== Sys2Proof/Machine/Dispatch.lean ====
section
/-!
DEFINITION. The dispatch: one arm per operation.
-/

namespace Sys2Proof.Machine

def exec (i : Instr) (s : State) : Host.Outcome State Fault Refusal :=
  match i with
  | .reset => Sys2Proof.Machine.execReset s
  | .issue => Sys2Proof.Machine.execIssue s
  | .waitHold => Sys2Proof.Machine.execWaitHold s
  | .transition v => Sys2Proof.Machine.execTransition v s

end Sys2Proof.Machine
end

