-- ==== Sys2Proof/Machine/Step.lean ====
section
/-!
DEFINITION. One step: one rising edge of `clk` (R13, R114).
-/

namespace Sys2Proof.Machine

/-- The step function of R114: the cycle's operation, then the edge. A cycle without a control word (`PH` unwritten and
`rst == 0`) is MF1. -/
def step (s : State) : Host.Outcome State Fault Refusal :=
  match s.fetch with
  | some i => endCycle (exec i s)
  | none => .fault (.mf1Unreset s.cycle)

/-- `s` with the operation whose bits are `w` as the one the next step performs (log 11). -/
def State.withFetchWord (s : State) (nbits w : Nat) : State := s.placeWord (BitVec.ofNat 6 (w % 2 ^ nbits))

end Sys2Proof.Machine
end

