-- ==== Sys2Proof/Machine/Conformance.lean ====
section
/-!
DEFINITION. What the source states of the table's contents (R84 to R100): the settled entries, the set `Reach`, and the properties
P1 to P10, "checks to run against a concrete ROM", which the model never assumes (R90; log 16). A property over `Reach` or over
input sequences is given twice: as the spec words it, and as a check that can be run.
-/

namespace Sys2Proof

/-- `ACK_W` as a state code (R89). -/
def Build.ackW (b : Build) : StateCode := BitVec.ofNat 4 b.params.ackW

/-- `CROSS` as a state code (R89). -/
def Build.cross (b : Build) : StateCode := BitVec.ofNat 4 b.params.cross

/-- `FLASH` as state codes, in their cycle order (R89). -/
def Build.flash (b : Build) : List StateCode := b.params.flash.toList.map (BitVec.ofNat 4)

/-- The roles of the 12 states (R87), with the order of the settled rows (R84, R86, R88) and of the flashing cycle (R89). -/
inductive Role where
  | southGreen
  | cautionAfterSouth
  | westGreen
  | cautionAfterWest
  | southAck
  | westAck
  | crossing
  | flashing (k : Fin 5)
  deriving DecidableEq, Repr

/-- The twelve roles: 4 + 2 + 1 + 5 (R87). -/
def allRoles : List Role :=
  [.southGreen, .cautionAfterSouth, .westGreen, .cautionAfterWest, .southAck, .westAck, .crossing, .flashing 0, .flashing 1,
    .flashing 2, .flashing 3, .flashing 4]

/-- The role of a state index, as R62's table gives it: row 0 is south green (R84), rows 1 and 3 are the caution states and row 2 is
west green (R88), row 4 is the south acknowledge state (R86), and the parameters say the rest (R89). -/
def Params.role (p : Params) (s : Nat) : Option Role :=
  match s with
  | 0 => some .southGreen
  | 1 => some .cautionAfterSouth
  | 2 => some .westGreen
  | 3 => some .cautionAfterWest
  | 4 => some .southAck
  | _ =>
    if s = p.ackW then some .westAck
    else if s = p.cross then some .crossing
    else ((List.finRange 5).find? fun k => decide (p.flash[k.val] = s)).map .flashing

/-- `Reach` (R90): the smallest set that holds 0 and, with `s`, `NEXT(s, v)` for every `v`. -/
inductive Build.Reach (b : Build) : StateCode → Prop
  | start : Build.Reach b 0
  | next {s n : StateCode} (v : InVec) : Build.Reach b s → b.next s v = some n → Build.Reach b n

/-- The next states of `s` for the eight input vectors. -/
def Build.succs (b : Build) (s : StateCode) : List StateCode := allVecs.filterMap (b.next s)

/-- The codes reached from the list `todo`, given those already `seen`: each new code is seen once and its next states are to do. -/
def Build.explore (b : Build) : Nat → List StateCode → List StateCode → List StateCode
  | 0, _, seen => seen
  | _, [], seen => seen
  | fuel + 1, s :: todo, seen =>
    if seen.contains s then b.explore fuel todo seen else b.explore fuel (b.succs s ++ todo) (s :: seen)

/-- `Reach` as a list. At most 16 codes are seen and each puts at most 8 to do, so 16 * 9 + 1 rounds empty the list of what is to
do. -/
def Build.reachList (b : Build) : List StateCode := b.explore 145 [0] []

/-- `f(LIGHT(s))`, for a predicate on traffic-light codes. -/
def Build.lightIs (b : Build) (f : BitVec b.params.lightW → Bool) (s : StateCode) : Bool := (b.light s).any f

/-- `f(PED(s))`, for a predicate on pedestrian codes. -/
def Build.pedIs (b : Build) (f : BitVec b.params.pedW → Bool) (s : StateCode) : Bool := (b.ped s).any f

/-- R85: with the idle vector the first four rows form the cycle 0, 1, 2, 3, 0. -/
def Build.idleCycle (b : Build) : Bool :=
  decide (b.next 0 0 = some 1) && decide (b.next 1 0 = some 2) && decide (b.next 2 0 = some 3) && decide (b.next 3 0 = some 0)

/-- R86: with the pedestrian bit alone set, row 0 goes to row 4. -/
def Build.southAck (b : Build) : Bool := decide (b.next 0 0b100 = some 4)

/-- R84 as a check on the codes: row 0 shows the south green. South traffic runs on the north/south road (D26, D27). -/
def Build.row0SouthGreen (b : Build) (d : CodeDecode b.params) : Bool := b.lightIs d.greenNS 0

/-- R88 as a check on the codes: row 2 shows the west green. West traffic runs on the east/west road (D26, D27). -/
def Build.row2WestGreen (b : Build) (d : CodeDecode b.params) : Bool := b.lightIs d.greenEW 2

/-- Row `s` shows no green in either direction. -/
def Build.noGreen (b : Build) (d : CodeDecode b.params) (s : StateCode) : Bool :=
  (b.light s).any fun x => !d.greenNS x && !d.greenEW x

/-- R88 as a check on the codes: the caution rows 1 and 3 show no green. DEDUCED, safe (log 19): R87 sets the caution states beside
the green ones and R88 says that neither is west green; that a caution row shows no green at all is the model's reading. -/
def Build.cautionRows (b : Build) (d : CodeDecode b.params) : Bool := b.noGreen d 1 && b.noGreen d 3

/-- R84 and R88 together: rows 0 to 3 show what their roles say. -/
def Build.normalRows (b : Build) (d : CodeDecode b.params) : Bool :=
  b.row0SouthGreen d && b.row2WestGreen d && b.cautionRows d

/-- P1 (R91) is the build check. -/
def Build.p1 (b : Build) : Bool := b.romValid

/-- P2 at one state and vector (R92). DESIGN CHOICE, safe (log 16): failed where `s` or the next state has no row. -/
def Build.p2At (b : Build) (d : CodeDecode b.params) (s : StateCode) (v : InVec) : Bool :=
  (b.light s).any fun x => (b.next s v).any fun n => (b.light n).any fun y =>
    (!d.greenNS x || !d.greenEW y) && (!d.greenEW x || !d.greenNS y)

/-- P2, no direct green to green (R92). -/
def Build.P2 (b : Build) (d : CodeDecode b.params) : Prop := ∀ s, b.Reach s → ∀ v, b.p2At d s v = true

/-- P2 as a check. -/
def Build.checkP2 (b : Build) (d : CodeDecode b.params) : Bool := b.reachList.all fun s => allVecs.all (b.p2At d s)

/-- P3 at one state (R93). DESIGN CHOICE, safe (log 16): failed at a code 12..15, where LIGHT has no value. -/
def Build.p3At (b : Build) (d : CodeDecode b.params) (s : StateCode) : Bool :=
  (b.light s).any fun x => !(d.greenNS x && d.greenEW x)

/-- P3, no conflicting greens (R93). -/
def Build.P3 (b : Build) (d : CodeDecode b.params) : Prop := ∀ s, b.Reach s → b.p3At d s = true

/-- P3 as a check. -/
def Build.checkP3 (b : Build) (d : CodeDecode b.params) : Bool := b.reachList.all (b.p3At d)

/-- P4, the crossing state's output (R94); failed where `CROSS` has no row (log 16). -/
def Build.p4 (b : Build) (d : CodeDecode b.params) : Bool :=
  b.lightIs d.redNS b.cross && b.lightIs d.redEW b.cross && b.pedIs d.walkOn b.cross

/-- The state `k` transitions after `s` under the vectors `u 0, u 1, ...`; none past a code that has no row (log 16). -/
def Build.path (b : Build) (u : Nat → InVec) (s : StateCode) : Nat → Option StateCode
  | 0 => some s
  | k + 1 => (b.path u s k).bind fun c => b.next c (u k)

/-- P5, bounded pedestrian service (R95): after a vector with the pedestrian bit at a green state g in 0, 2, whatever the later
vectors, `CROSS` is one of the states `s_1 = NEXT(g, v)` to `s_K`, with K = `K_PED`. -/
def Build.P5 (b : Build) : Prop :=
  ∀ g ∈ [(0 : StateCode), 2], ∀ v : InVec, vecPed v = true → ∀ u : Nat → InVec,
    ∃ j, 1 ≤ j ∧ j ≤ b.params.kPed ∧ (b.next g v).bind (fun s => b.path u s (j - 1)) = some b.cross

/-- From `s`, every sequence of vectors shows `CROSS` among its first `k` states, `s` the first of them. -/
def Build.leadsToCross (b : Build) : Nat → StateCode → Bool
  | 0, _ => false
  | k + 1, s => decide (s = b.cross) || allVecs.all fun u => (b.next s u).any (b.leadsToCross k)

/-- P5 as a check. -/
def Build.checkP5 (b : Build) : Bool :=
  [(0 : StateCode), 2].all fun g => (allVecs.filter vecPed).all fun v => (b.next g v).any (b.leadsToCross b.params.kPed)

/-- P6, idle alternation (R96): the idle cycle of R85, and no row of it grants both greens. -/
def Build.p6 (b : Build) (d : CodeDecode b.params) : Bool :=
  b.idleCycle && [(0 : StateCode), 1, 2, 3].all (b.p3At d)

/-- P7, a green direction ignores its own car sensor (R97). -/
def Build.p7 (b : Build) : Bool :=
  allVecs.all fun v => decide (b.next 0 v = b.next 0 (v ^^^ 0b010)) && decide (b.next 2 v = b.next 2 (v ^^^ 0b001))

/-- P8, the acknowledge states (R98). -/
def Build.p8 (b : Build) : Bool :=
  ((allVecs.filter vecPed).all fun v => decide (b.next 0 v = some 4) && decide (b.next 2 v = some b.ackW)) &&
    [4, b.ackW].all fun a => allVecs.any fun v => decide (b.next a v = some b.cross)

/-- P9, the flashing cycle (R99): each flashing state goes to the one after it, the last to the first, for every vector. -/
def Build.p9 (b : Build) : Bool :=
  (b.flash.zip (b.flash.rotate 1)).all fun f => allVecs.all fun v => decide (b.next f.1 v = some f.2)

/-- P10, the flashing states are not reached (R100). -/
def Build.P10 (b : Build) : Prop := ∀ f ∈ b.flash, ¬ b.Reach f

/-- P10 as a check. -/
def Build.checkP10 (b : Build) : Bool := b.flash.all fun f => !b.reachList.contains f

end Sys2Proof
end

