-- ==== Sys2Proof/Machine/Flags.lean ====
section
/-!
DEFINITION. The block has no flags (R29). "The only status a collaborator can observe is `PH`, through `wait_start`, and `S`,
through `state_q`": the two status ports (R26).
-/

namespace Sys2Proof.Machine

/-- `wait_start = (PH == ISSUE) and (rst == 0)` (R26). With `PH` unwritten it is 0 in a reset cycle (V-C1, R110) and any value
otherwise (R36; log 7). -/
def State.waitStart (s : State) : Bool :=
  match s.PH with
  | some ph => decide (ph = .issue) && !stimRst s.stim
  | none => if stimRst s.stim then false else Config.freeWaitStart s.cycle

/-- `state_q = S` (R26), any value while `S` is unwritten (R36; log 7). -/
def State.stateQ (s : State) : StateCode :=
  match s.S with
  | some code => code
  | none => Config.freeStateQ s.cycle

end Sys2Proof.Machine
end

