-- ==== Sys2Proof/Machine/Ports.lean ====
section
/-!
DEFINITION. The output ports of a cycle (R24 to R26) and the observation line (R73), read before the cycle's edge.
-/

namespace Sys2Proof.Machine

/-- A port that shows a field of the row `S` selects. While `S` is unwritten it is any value, `free` (R36). With `S` in 12..15 the
read is MF2 (R45, R81), but in a reset cycle, which is defined from every state (R110), it is any value (V-C14; log 7). -/
def State.rowPort {w : Nat} (s : State) (sel : StateCode → Option (BitVec w)) (free : BitVec w) : Except Fault (BitVec w) :=
  match s.S with
  | none => .ok free
  | some code =>
    match sel code with
    | some x => .ok x
    | none => if stimRst s.stim then .ok free else .error (.mf2IllegalState s.cycle code)

/-- `light_out = LIGHT(S)` (R25). -/
def State.lightOut (s : State) : Except Fault (BitVec s.hw.params.lightW) :=
  s.rowPort s.hw.light (Config.freeLight s.cycle s.hw.params.lightW)

/-- `ped_out = PED(S)` (R25). -/
def State.pedOut (s : State) : Except Fault (BitVec s.hw.params.pedW) :=
  s.rowPort s.hw.ped (Config.freePed s.cycle s.hw.params.pedW)

/-- `wait_ticks = DWELL(S)` (R26), at its own width, unchanged (R65). -/
def State.waitTicks (s : State) : Except Fault (BitVec s.hw.params.dwellW) :=
  s.rowPort s.hw.dwell (Config.freeTicks s.cycle s.hw.params.dwellW)

/-- The five output ports (R24). -/
structure Ports (p : Params) where
  lightOut : BitVec p.lightW
  pedOut : BitVec p.pedW
  waitStart : Bool
  waitTicks : BitVec p.dwellW
  stateQ : StateCode
  deriving DecidableEq, Repr

/-- The output ports of the current cycle; the fault of the output multiplexer where it has one (R81, R82). -/
def State.ports (s : State) : Except Fault (Ports s.hw.params) :=
  match s.lightOut, s.pedOut, s.waitTicks with
  | .ok light, .ok ped, .ok ticks => .ok ⟨light, ped, s.waitStart, ticks, s.stateQ⟩
  | .error f, _, _ => .error f
  | _, .error f, _ => .error f
  | _, _, .error f => .error f

/-- The observation line of a cycle (R73): the cycle number, the stimulus, the registers, the ports and the operation. -/
structure Observation (p : Params) where
  cycle : Nat
  stim : StimWord
  S : Option StateCode
  PH : Option Phase
  ports : Ports p
  op : Option Instr
  deriving DecidableEq, Repr

/-- The observation line of the current cycle (R73). -/
def State.observe (s : State) : Except Fault (Observation s.hw.params) :=
  match s.ports with
  | .ok p => .ok ⟨s.cycle, s.stim, s.S, s.PH, p, s.fetch⟩
  | .error f => .error f

end Sys2Proof.Machine
end

