-- ==== Sys2Proof/Machine/Run.lean ====
section
/-!
DEFINITION. Stimulus sequences and the runs they drive: the program notation (R71, R72), a run under a finite sequence, and a run
under an endless one (R123, R125).
-/

namespace Sys2Proof.Machine

/-- A statement of the program notation (R71, R72). -/
inductive Stmt where
  /-- `CYC r d vvv`. -/
  | cyc (rst done : Bool) (v : InVec)
  /-- `RESET`. -/
  | reset
  /-- `ITER vvv`. -/
  | iter (v : InVec)
  /-- `ITER vvv HOLD k www`. -/
  | iterHold (v : InVec) (k : Nat) (w : InVec)
  /-- `ITER vvv HOLD k`. -/
  | iterHoldIdle (v : InVec) (k : Nat)
  deriving DecidableEq, Repr

/-- The stimulus words of `ITER vvv HOLD k www` (R72): the ISSUE cycle, `k` cycles with the inputs `w`, the answer with `v`. -/
def iterWords (v : InVec) (k : Nat) (w : InVec) : List StimWord :=
  stimWord false false 0 :: (List.replicate k (stimWord false false w) ++ [stimWord false true v])

/-- The stimulus words a statement stands for (R71, R72). -/
def Stmt.words : Stmt → List StimWord
  | .cyc rst done v => [stimWord rst done v]
  | .reset => [stimWord true false 0]
  | .iter v => iterWords v 0 0
  | .iterHold v k w => iterWords v k w
  | .iterHoldIdle v k => iterWords v k 0

/-- The stimulus words of a program: "A program runs its statements in order, one cycle each" (R71). -/
def programWords (p : List Stmt) : List StimWord := p.flatMap Stmt.words

/-- `n` steps, ending at the first fault or refusal. -/
def runFor : Nat → State → Host.Outcome State Fault Refusal
  | 0, s => .next s
  | n + 1, s =>
    match step s with
    | .next t => runFor n t
    | .fault f => .fault f
    | .refused r => .refused r

/-- The run of `words`, one cycle each, from `s` (R71): what stands after the edge of the last one. -/
def runWords (words : List StimWord) (s : State) : Host.Outcome State Fault Refusal := runFor words.length (s.drive words)

/-- One cycle in which the collaborators drive `σ` (R123). -/
def cycleWith (σ : StimWord) (s : State) : Host.Outcome State Fault Refusal := step (s.drive [σ])

/-- What stands after `n` cycles of an endless stimulus sequence (R123, R125). -/
def runStream (σ : Nat → StimWord) (s : State) : Nat → Host.Outcome State Fault Refusal
  | 0 => .next s
  | n + 1 =>
    match runStream σ s n with
    | .next t => cycleWith (σ n) t
    | .fault f => .fault f
    | .refused r => .refused r

end Sys2Proof.Machine
end

