-- ==== Sys2Proof/Safety.lean ====
section
/-!
DEFINITION. What counts as a safe state, and the duties of the collaborators a claim may take as a premise (R123, R146).
-/

namespace Sys2Proof.Machine

/-- `S` is unwritten or holds a legal code (R20, R21). -/
def State.codeLegal (s : State) : Bool := s.S.all fun code => decide (code.toNat < 12)

/-- The invariant of the block: its configuration is admitted (R142, R163), `S` and `PH` are written together (R33, R48), and `S`
holds no illegal code (R21). -/
abbrev State.Inv (s : State) : Prop :=
  s.hw.wellFormed = true ∧ s.S.isSome = s.PH.isSome ∧ s.codeLegal = true

/-- The block has had its reset edge and holds a legal code: the states in which every operation completes (R114). -/
abbrev State.Running (s : State) : Prop := s.Inv ∧ s.S.isSome = true

/-- `S` is unwritten, or in the set `Reach` of R90. -/
def State.Reachable (s : State) : Prop := ∀ code, s.S = some code → s.hw.Reach code

/-- The duty of the startup collaborators (R150, R163): the first rising edge sees `rst == 1`. -/
def StartsWithReset (σ : Nat → StimWord) : Prop := stimRst (σ 0) = true

/-- The liveness assumption on the Timing Source (R124, R147 duty 2), in the run of `σ` from `s`: a wait in progress is answered,
if `rst` stays 0. -/
def TimerReturns (σ : Nat → StimWord) (s : State) : Prop :=
  ∀ n t, runStream σ s n = .next t → t.PH = some .wait → (∀ m, n ≤ m → stimRst (σ m) = false) →
    ∃ m, n ≤ m ∧ stimDone (σ m) = true

/-- Cycle `n` of the run of `σ` from `s` is performed in state `t`, with the stimulus word of that cycle (R13). -/
def InCycle (σ : Nat → StimWord) (s : State) (n : Nat) (t : State) : Prop :=
  ∃ u, runStream σ s n = .next u ∧ t = u.drive [σ n]

/-- A request is made in cycle `r`: `wait_start == 1` (R147). -/
def RequestAt (σ : Nat → StimWord) (s : State) (r : Nat) : Prop := ∃ t, InCycle σ s r t ∧ t.waitStart = true

/-- `r` is the cycle of the most recent request before cycle `n`: "A new request cancels and replaces any earlier one" (R147). -/
def MostRecentRequest (σ : Nat → StimWord) (s : State) (n r : Nat) : Prop :=
  r < n ∧ RequestAt σ s r ∧ ∀ m, r < m → m < n → ¬ RequestAt σ s m

/-- Duty 1 of the Timing Source (R147): in a WAIT cycle `wait_done` is 1 only if the most recent request has completed. When a
request made in cycle `r` has completed by cycle `n` is the collaborator's own, `TIMER_ACCURACY` (D19): an argument. -/
def TimerIsHonest (completed : Nat → Nat → Prop) (σ : Nat → StimWord) (s : State) : Prop :=
  ∀ n t, InCycle σ s n t → t.PH = some .wait → stimDone (σ n) = true → ∃ r, MostRecentRequest σ s n r ∧ completed r n

end Sys2Proof.Machine
end

