-- ==== Sys2Proof/Certificates/Slice0/Obligations.lean ====
section
/-!
DEFINITION. The statements about the EE319K-A5 TLC core, each from the rules of spec/ its docstring names.
-/

open Sys2Proof Sys2Proof.Machine

/-! ## Encodings and decode -/

/-- R67: of the four rows exactly one matches a control word, and it is the decoded operation's; the eight values come out as the
rule lists them. -/
def Obligations.ControlWordSelectsOneOperation : Prop :=
  (∀ (cw : ControlWord) (v : InVec),
    opcodeRows.filter (fun r => r.covers cw) = opcodeRows.filter (fun r => r.mnemonic == (decode cw v).mnemonic) ∧
    (opcodeRows.filter (fun r => r.covers cw)).length = 1) ∧
  ∀ v : InVec,
    decode 0b100 v = .reset ∧ decode 0b101 v = .reset ∧ decode 0b110 v = .reset ∧ decode 0b111 v = .reset ∧
    decode 0b000 v = .issue ∧ decode 0b001 v = .issue ∧ decode 0b010 v = .waitHold ∧ decode 0b011 v = .transition v

/-- Words written out from R67's patterns, and one vector from R60's order, decode to what they stand for. -/
def Obligations.WrittenOutWordsDecode : Prop :=
  decodeTableWord 8 0b100 = some .reset ∧ decodeTableWord 8 0b000 = some .issue ∧ decodeTableWord 8 0b010 = some .waitHold ∧
  decodeTableWord 8 0b011 = some (.transition 0b000) ∧ decodeTableWord 6 0b100011 = some (.transition 0b100) ∧
  decodeTableWord 8 0b1000011 = none

/-- The round trip for every operation, every operand and every state: the word of an operation decodes to it, and placed in any
state it is the operation the next step performs. The word layout is the model's own (log 10, 11). -/
def Obligations.EncodedOperationIsFetched : Prop :=
  ∀ (i : Instr) (s : State),
    decodeTableWord 6 (encode i).toNat = some i ∧
    (s.withFetchWord 6 (encode i).toNat).fetch = some i ∧
    step (s.withFetchWord 6 (encode i).toNat) = endCycle (exec i (s.withFetchWord 6 (encode i).toNat)) ∧
    (s.withFetchWord 6 (encode i).toNat).hw = s.hw ∧ (s.withFetchWord 6 (encode i).toNat).S = s.S ∧
    (s.withFetchWord 6 (encode i).toNat).cycle = s.cycle

/-- R60 and R61: the packing of the three inputs, its inverse, and the same packing in the sample of a stimulus word. -/
def Obligations.InputVectorPacking : Prop :=
  (∀ ped ns ew : Bool,
    (packInputs ped ns ew).toNat = 4 * ped.toNat + 2 * ns.toNat + ew.toNat ∧
    vecPed (packInputs ped ns ew) = ped ∧ vecNs (packInputs ped ns ew) = ns ∧ vecEw (packInputs ped ns ew) = ew) ∧
  (∀ v : InVec, packInputs (vecPed v) (vecNs v) (vecEw v) = v ∧ (Instr.transition v).wellFormed = true) ∧
  ∀ (rst done ped ns ew : Bool), stimVec (stimWord rst done (packInputs ped ns ew)) = packInputs ped ns ew

/-- R63: the address of a lookup is `8*s + v`, and for a legal code it is in 0..95. -/
def Obligations.NextAddressIsConcatenation : Prop :=
  ∀ (s : StateCode) (v : InVec),
    (nsAddr s v).toNat = 8 * s.toNat + v.toNat ∧ (s.toNat < 12 → (nsAddr s v).toNat ≤ 95)

/-- R64: an output word is taken apart into the fields it was assembled from, and assembled again from its fields, at every width;
the ROM of a built block holds the words so assembled, and the functions of a row answer the fields of its word as they are. -/
def Obligations.OutputWordFields : Prop :=
  (∀ lw pw dw : Nat,
    (∀ (light : BitVec lw) (ped : BitVec pw) (dwell : BitVec dw),
      lightField lw pw dw (outWord light ped dwell) = light ∧ pedField lw pw dw (outWord light ped dwell) = ped ∧
      dwellField lw pw dw (outWord light ped dwell) = dwell) ∧
    ∀ w : BitVec (lw + pw + dw), outWord (lightField lw pw dw w) (pedField lw pw dw w) (dwellField lw pw dw w) = w) ∧
  (∀ (p : Params) (t : Table p) (s : Fin 12),
    (Build.ofTable p t).outRom[s.val] = outWord (t.rows[s.val]).light (t.rows[s.val]).ped (t.rows[s.val]).dwell) ∧
  ∀ (b : Build) (s : StateCode) (w : BitVec b.params.ow), b.readOut s = some w →
    b.light s = some (lightField b.params.lightW b.params.pedW b.params.dwellW w) ∧
    b.ped s = some (pedField b.params.lightW b.params.pedW b.params.dwellW w) ∧
    b.dwell s = some (dwellField b.params.lightW b.params.pedW b.params.dwellW w)

/-- R70: the stimulus word holds the five input ports in the order given. -/
def Obligations.StimulusWordFields : Prop :=
  ∀ (rst done : Bool) (v : InVec),
    (stimWord rst done v).toNat = 16 * rst.toNat + 8 * done.toNat + v.toNat ∧
    stimRst (stimWord rst done v) = rst ∧ stimDone (stimWord rst done v) = done ∧ stimVec (stimWord rst done v) = v

/-- R66: the control word of a cycle, and that the vector selects no operation. -/
def Obligations.ControlWordIsFormed : Prop :=
  (∀ (s : State) (ph : Phase), s.PH = some ph →
    ∃ cw, s.controlWord = some cw ∧ cw.toNat = 4 * (stimRst s.stim).toNat + 2 * ph.bit.toNat + (stimDone s.stim).toNat ∧
      s.fetch = some (decode cw (stimVec s.stim))) ∧
  ∀ (cw : ControlWord) (v w : InVec), (decode cw v).mnemonic = (decode cw w).mnemonic

/-! ## The ROMs and the build -/

/-- R40, R41, R81 to R83: the block built from a table answers, for every legal code and every vector, that table's row. -/
def Obligations.BuiltRomsHoldTheTable : Prop :=
  ∀ (p : Params) (t : Table p) (s : Fin 12) (v : InVec),
    (Build.ofTable p t).light (BitVec.ofNat 4 s.val) = some (t.rows[s.val]).light ∧
    (Build.ofTable p t).ped (BitVec.ofNat 4 s.val) = some (t.rows[s.val]).ped ∧
    (Build.ofTable p t).dwell (BitVec.ofNat 4 s.val) = some (t.rows[s.val]).dwell ∧
    (Build.ofTable p t).next (BitVec.ofNat 4 s.val) v = some ((t.rows[s.val]).next[v.toNat])

/-- R45: an unpopulated address answers no word, a populated one its own, and the state code decides which for the three
functions of a row. -/
def Obligations.UnpopulatedWordsAreNotRead : Prop :=
  ∀ b : Build,
    (∀ a : NsAddr, (b.readNs a = none ↔ 96 ≤ a.toNat) ∧ ∀ h : a.toNat < 96, b.readNs a = some b.nsRom[a.toNat]) ∧
    (∀ s : StateCode, (b.readOut s = none ↔ 12 ≤ s.toNat) ∧ ∀ h : s.toNat < 12, b.readOut s = some b.outRom[s.toNat]) ∧
    ∀ (s : StateCode) (v : InVec), b.next s v = none ↔ 12 ≤ s.toNat

/-- R44: the build check, on the entries of the table and on nothing else of it; a table that fails it is refused. -/
def Obligations.BuildCheckRefusesBadRom : Prop :=
  ∀ (p : Params) (t : Table p),
    ((Build.ofTable p t).romValid = true ↔ ∀ (s : Fin 12) (v : Fin 8), ((t.rows[s.val]).next[v.val]).toNat < 12) ∧
    (powerUp p t = .refused .rf1BadRom ↔ ∃ (s : Fin 12) (v : Fin 8), 12 ≤ ((t.rows[s.val]).next[v.val]).toNat)

/-- R142, R10, R89, with the order of the two checks the model chose (log 15): a table that passes is refused exactly when a width
is 0 or the roles are not exactly the indices 5..11, and otherwise the block stands unwritten (R36). -/
def Obligations.BuildCheckRefusesBadParameters : Prop :=
  ∀ (p : Params) (t : Table p), (Build.ofTable p t).romValid = true →
    ((p.wellFormed = true ↔
      1 ≤ p.lightW ∧ 1 ≤ p.pedW ∧ 1 ≤ p.dwellW ∧ (p.ackW :: p.cross :: p.flash.toList).Perm [5, 6, 7, 8, 9, 10, 11]) ∧
    powerUp p t = if p.wellFormed then .next (State.powerOn (Build.ofTable p t)) else .refused .rf2BadParam)

/-- R43: no step writes a ROM. -/
def Obligations.NoStepWritesTheRoms : Prop :=
  ∀ s t : State, step s = .next t → t.hw = s.hw

/-! ## The four operations -/

/-- R110: RESET from every state, in words of its own: the encoding, the writes, the ports of the cycle, and the request it
abandons. -/
def Obligations.ResetIsColdStart : Prop :=
  (∀ s : State, exec .reset s = .next { s with S := some 0, PH := some .issue }) ∧
  ∀ s : State, stimRst s.stim = true →
    s.fetch = some .reset ∧
    (∃ t, step s = .next t ∧ t.hw = s.hw ∧ t.S = some 0 ∧ t.PH = some .issue ∧ t.insideRequest = false ∧
      t.outstandingRequest = none) ∧
    s.waitStart = false ∧
    ∀ code, s.S = some code →
      (∀ x, s.hw.light code = some x → s.lightOut = .ok x) ∧ (∀ x, s.hw.ped code = some x → s.pedOut = .ok x)

/-- R111: ISSUE on legal, written registers completes; its cycle carries the request; its faults are those of the rule. -/
def Obligations.IssueRequestsTheWait : Prop :=
  (∀ (s : State) (code : StateCode) (ph : Phase), s.S = some code → s.PH = some ph → code.toNat < 12 →
    exec .issue s = .next { s with PH := some .wait }) ∧
  (∀ (s : State) (code : StateCode), s.S = some code → s.PH = some .issue → code.toNat < 12 → stimRst s.stim = false →
    s.fetch = some .issue ∧ s.waitStart = true ∧
    (∃ d, s.hw.dwell code = some d ∧ s.waitTicks = .ok d) ∧
    ∃ t, step s = .next t ∧ t.hw = s.hw ∧ t.S = some code ∧ t.PH = some .wait ∧ t.waitStart = false) ∧
  (∀ s : State, s.S = none → exec .issue s = .fault (.mf1Unreset s.cycle)) ∧
  ∀ (s : State) (code : StateCode) (ph : Phase), s.S = some code → s.PH = some ph → 12 ≤ code.toNat →
    exec .issue s = .fault (.mf2IllegalState s.cycle code)

/-- R112: WAIT_HOLD on legal, written registers completes and writes nothing; as long as neither an answer nor a reset comes it
goes on so, for any number of cycles and whatever the inputs; unwritten registers are MF1. -/
def Obligations.WaitHoldWritesNothing : Prop :=
  (∀ (s : State) (code : StateCode) (ph : Phase), s.S = some code → s.PH = some ph → code.toNat < 12 →
    exec .waitHold s = .next s) ∧
  (∀ (s : State) (code : StateCode), s.S = some code → s.PH = some .wait → code.toNat < 12 → stimRst s.stim = false →
    stimDone s.stim = false →
    s.fetch = some .waitHold ∧ ∃ t, step s = .next t ∧ t.hw = s.hw ∧ t.S = some code ∧ t.PH = some .wait) ∧
  (∀ (s : State) (code : StateCode) (words : List StimWord), s.S = some code → s.PH = some .wait → code.toNat < 12 →
    (∀ σ ∈ words, stimRst σ = false ∧ stimDone σ = false) →
    runWords words s = .next { s with stimulus := [], cycle := s.cycle + words.length }) ∧
  ∀ s : State, s.S = none ∨ s.PH = none → exec .waitHold s = .fault (.mf1Unreset s.cycle)

/-- R113: TRANSITION on legal, written registers completes with the ROM's next state, for every vector, and the row of that state
is what the ports show from the edge on; its faults are those of the rule. -/
def Obligations.TransitionMovesToTheNextState : Prop :=
  (∀ (s : State) (code : StateCode) (ph : Phase) (v : InVec), s.S = some code → s.PH = some ph → code.toNat < 12 →
    ∃ n, s.hw.next code v = some n ∧ exec (.transition v) s = .next { s with S := some n, PH := some .issue }) ∧
  (∀ (s : State) (code : StateCode), s.S = some code → s.PH = some .wait → code.toNat < 12 → stimRst s.stim = false →
    stimDone s.stim = true →
    s.fetch = some (.transition (stimVec s.stim)) ∧
    ∃ n t, s.hw.next code (stimVec s.stim) = some n ∧ step s = .next t ∧ t.hw = s.hw ∧ t.S = some n ∧ t.PH = some .issue ∧
      (s.hw.romValid = true → n.toNat < 12) ∧
      (∀ x, t.hw.light n = some x → t.lightOut = .ok x) ∧ (∀ x, t.hw.ped n = some x → t.pedOut = .ok x) ∧
      ∀ x, t.hw.dwell n = some x → t.waitTicks = .ok x) ∧
  (∀ (s : State) (v : InVec), s.S = none ∨ s.PH = none → exec (.transition v) s = .fault (.mf1Unreset s.cycle)) ∧
  ∀ (s : State) (code : StateCode) (ph : Phase) (v : InVec), s.S = some code → s.PH = some ph → 12 ≤ code.toNat →
    exec (.transition v) s = .fault (.mf2IllegalState s.cycle code)

/-- What each operation leaves unchanged where it answers a next state. S and PH are its only destinations, as the operation's rule
names them (R110 to R113, R22, R23); the ROMs, the stimulus and the cycle number are nobody's. -/
def Obligations.OperationFrames : Prop :=
  ∀ s t : State,
    (exec .reset s = .next t → t.hw = s.hw ∧ t.stimulus = s.stimulus ∧ t.cycle = s.cycle) ∧
    (exec .issue s = .next t → t.hw = s.hw ∧ t.S = s.S ∧ t.stimulus = s.stimulus ∧ t.cycle = s.cycle) ∧
    (exec .waitHold s = .next t → t = s) ∧
    ∀ v, exec (.transition v) s = .next t → t.hw = s.hw ∧ t.stimulus = s.stimulus ∧ t.cycle = s.cycle

/-! ## The step -/

/-- A step performs the cycle's operation and then passes the edge: the stimulus list loses its first word and the cycle number
grows by one. A fault stands as it is. Without a control word (PH unwritten, `rst == 0`) the step is MF1. -/
def Obligations.StepRunsTheFetchedOperation : Prop :=
  (∀ (s : State) (i : Instr), s.fetch = some i →
    step s = endCycle (exec i s) ∧
    (∀ t, exec i s = .next t → step s = .next { t with stimulus := t.stimulus.tail, cycle := t.cycle + 1 }) ∧
    ∀ f, exec i s = .fault f → step s = .fault f) ∧
  ∀ s : State, s.fetch = none → step s = .fault (.mf1Unreset s.cycle)

/-- R114 and R144: the step function, branch by branch in the order of the rules. -/
def Obligations.StepFollowsThePriority : Prop :=
  (∀ s : State, stimRst s.stim = true → step s = .next (s.writeLoop 0 .issue).tick) ∧
  (∀ s : State, stimRst s.stim = false → (s.S = none ∨ s.PH = none) → step s = .fault (.mf1Unreset s.cycle)) ∧
  (∀ (s : State) (code : StateCode) (ph : Phase), stimRst s.stim = false → s.S = some code → s.PH = some ph →
    12 ≤ code.toNat → step s = .fault (.mf2IllegalState s.cycle code)) ∧
  (∀ (s : State) (code : StateCode), stimRst s.stim = false → s.S = some code → code.toNat < 12 → s.PH = some .issue →
    step s = .next (s.writePhase .wait).tick) ∧
  (∀ (s : State) (code : StateCode), stimRst s.stim = false → s.S = some code → code.toNat < 12 → s.PH = some .wait →
    stimDone s.stim = false → step s = .next s.tick) ∧
  ∀ (s : State) (code : StateCode), stimRst s.stim = false → s.S = some code → code.toNat < 12 → s.PH = some .wait →
    stimDone s.stim = true →
    ∃ n, s.hw.next code (stimVec s.stim) = some n ∧ step s = .next (s.writeLoop n .issue).tick

/-- R141 with R114: a step faults exactly in a cycle without reset whose registers are unwritten or whose `S` is illegal, and the
fault records the cycle number and, for MF2, the value of `S`. -/
def Obligations.StepFaultsExactlyWhen : Prop :=
  ∀ (s : State) (f : Fault), step s = .fault f ↔
    stimRst s.stim = false ∧
    ((s.S = none ∨ s.PH = none) ∧ f = .mf1Unreset s.cycle ∨
      ∃ code ph, s.S = some code ∧ s.PH = some ph ∧ 12 ≤ code.toNat ∧ f = .mf2IllegalState s.cycle code)

/-- Refusals are answered before any step (R142) and by no step. -/
def Obligations.NoStepRefuses : Prop :=
  ∀ (s : State) (r : Refusal), step s ≠ .refused r

/-- R22: `S` is written by RESET with 0 and by TRANSITION with the ROM's entry, and keeps its value in every other cycle. -/
def Obligations.StateRegisterHasTwoWriters : Prop :=
  ∀ s t : State, step s = .next t →
    (s.fetch = some .reset ∧ t.S = some 0) ∨
    (∃ v code, s.fetch = some (.transition v) ∧ s.S = some code ∧ t.S = s.hw.next code v ∧ t.S.isSome = true) ∨
    ((s.fetch = some .issue ∨ s.fetch = some .waitHold) ∧ t.S = s.S)

/-- R23: the two values of `PH` and its writers. -/
def Obligations.PhaseRegisterWriters : Prop :=
  Phase.bit .issue = false ∧ Phase.bit .wait = true ∧
  ∀ s t : State, step s = .next t →
    ((s.fetch = some .reset ∨ ∃ v, s.fetch = some (.transition v)) → t.PH = some .issue) ∧
    (s.fetch = some .issue → t.PH = some .wait) ∧
    (s.fetch = some .waitHold → t.PH = s.PH)

/-! ## Ports -/

/-- R25 and R26: the ports of a cycle with written registers and a legal code. -/
def Obligations.PortDrives : Prop :=
  ∀ (s : State) (code : StateCode) (ph : Phase), s.S = some code → s.PH = some ph → code.toNat < 12 →
    ∃ light ped ticks, s.hw.light code = some light ∧ s.hw.ped code = some ped ∧ s.hw.dwell code = some ticks ∧
      s.ports = .ok ⟨light, ped, decide (ph = .issue ∧ stimRst s.stim = false), ticks, code⟩

/-- R3: the outputs are a function of the current state and the block as built, and of no input: the row outputs and `state_q` of
`S` alone, and `wait_start` of `PH` and `rst` but never of the three inputs. -/
def Obligations.OutputsAreMoore : Prop :=
  (∀ (s : State) (code : StateCode) (ph : Option Phase) (words : List StimWord) (n : Nat), s.S = some code →
    code.toNat < 12 →
    State.lightOut { s with PH := ph, stimulus := words, cycle := n } = s.lightOut ∧
    State.pedOut { s with PH := ph, stimulus := words, cycle := n } = s.pedOut ∧
    State.waitTicks { s with PH := ph, stimulus := words, cycle := n } = s.waitTicks ∧
    State.stateQ { s with PH := ph, stimulus := words, cycle := n } = s.stateQ) ∧
  ∀ (s : State) (rst done done' : Bool) (v w : InVec) (words words' : List StimWord),
    (s.drive (stimWord rst done v :: words)).waitStart = (s.drive (stimWord rst done' w :: words')).waitStart

/-- R37 and R38: the ports in the first cycle after a reset edge, from whatever state. -/
def Obligations.PortsAfterReset : Prop :=
  ∀ s : State, stimRst s.stim = true →
    ∃ t light ped ticks, step s = .next t ∧ t.hw = s.hw ∧ t.S = some 0 ∧ t.PH = some .issue ∧
      t.hw.light 0 = some light ∧ t.hw.ped 0 = some ped ∧ t.hw.dwell 0 = some ticks ∧
      t.ports = .ok ⟨light, ped, !stimRst t.stim, ticks, 0⟩

/-- R21, R45, R81: with an illegal code and no reset the output multiplexer is MF2. -/
def Obligations.IllegalStatePortsFault : Prop :=
  ∀ (s : State) (code : StateCode), s.S = some code → 12 ≤ code.toNat → stimRst s.stim = false →
    s.lightOut = .error (.mf2IllegalState s.cycle code) ∧ s.pedOut = .error (.mf2IllegalState s.cycle code) ∧
    s.waitTicks = .error (.mf2IllegalState s.cycle code)

/-- R32: in every state the block is inside a request exactly when `PH` is WAIT, and with a legal code the request is for `DWELL(S)`
ticks. -/
def Obligations.RequestOutstandingExactlyInWait : Prop :=
  (∀ s : State, s.insideRequest = true ↔ s.PH = some .wait) ∧
  ∀ (s : State) (code : StateCode), s.S = some code → code.toNat < 12 →
    (s.outstandingRequest.isSome = true ↔ s.PH = some .wait) ∧
    (s.PH = some .wait → s.outstandingRequest = s.hw.dwell code)

/-! ## Reset -/

/-- R34 and R35: the registers after a reset edge, in State.reset and after any step of a cycle with `rst == 1`; the first cycle
after it requests the wait for row 0. -/
def Obligations.ResetRegisters : Prop :=
  (State.reset.S = some 0 ∧ State.reset.PH = some .issue) ∧
  (∀ s : State, stimRst s.stim = true → ∃ t, step s = .next t ∧ t.S = some 0 ∧ t.PH = some .issue) ∧
  ∀ (s : State) (σ : StimWord), s.S = some 0 → s.PH = some .issue → stimRst σ = false →
    (s.drive [σ]).waitStart = true ∧ ∃ ticks, s.hw.dwell 0 = some ticks ∧ (s.drive [σ]).waitTicks = .ok ticks

/-- The hardware's configuration is admitted, so the state after reset meets the invariant (R163, R44). -/
def Obligations.ResetMeetsTheInvariant : Prop :=
  State.reset.Running ∧ State.reset.Reachable

/-- R85 on the table of the state after reset. -/
def Obligations.ResetTableHasTheIdleCycle : Prop :=
  State.reset.hw.next 0 0b000 = some 1 ∧ State.reset.hw.next 1 0b000 = some 2 ∧ State.reset.hw.next 2 0b000 = some 3 ∧
  State.reset.hw.next 3 0b000 = some 0

/-- R86 and W2: at south green with the pedestrian bit alone, the block moves to state 4. -/
def Obligations.SouthPedestrianIsAcknowledged : Prop :=
  State.reset.hw.next 0 0b100 = some 4 ∧
  ∃ t, runWords [0x00, 0x0C] State.reset = .next t ∧ t.S = some 4 ∧ t.PH = some .issue

/-- R160 and R161: one reset edge is enough from every state, more change nothing further, and the first cycle without reset is an
ISSUE. -/
def Obligations.ResetFromEveryState : Prop :=
  ∀ (s : State) (words : List StimWord), words ≠ [] → (∀ σ ∈ words, stimRst σ = true) →
    ∃ t, runWords words s = .next t ∧ t.hw = s.hw ∧ t.S = some 0 ∧ t.PH = some .issue ∧
      ∀ σ, stimRst σ = false → (t.drive [σ]).fetch = some .issue

/-! ## Invariants -/

/-- R21, R22, R44: every step keeps the invariant: an admitted configuration, registers written together, a legal code. -/
def Obligations.StepKeepsTheInvariant : Prop :=
  ∀ s t : State, s.Inv → step s = .next t → t.Inv ∧ t.Running

/-- R90: every step keeps `S` within the set `Reach` of the block's own ROM. -/
def Obligations.StepKeepsReach : Prop :=
  ∀ s t : State, s.Reachable → step s = .next t → t.Reachable

/-- R90: `Reach` is the set of states that some input sequence from reset can show, no more and no less. -/
def Obligations.ReachIsWhatRunsShow : Prop :=
  ∀ (b : Build) (code : StateCode),
    b.Reach code ↔ ∃ words t, runWords words (State.powerOn b) = .next t ∧ t.S = some code

/-- R141, R21, R45, R125: in an admitted block whose first edge sees `rst == 1`, no stimulus sequence ever leads to a fault or a
refusal: after every cycle the block stands in a running state, its ROMs as built. -/
def Obligations.NoFaultAfterReset : Prop :=
  ∀ (b : Build) (σ : Nat → StimWord), b.wellFormed = true → StartsWithReset σ →
    ∀ n, ∃ t, runStream σ (State.powerOn b) (n + 1) = .next t ∧ t.Running ∧ t.Reachable ∧ t.hw = b

/-- R36: without a reset at the first edge the run from power-on faults in its first cycle. -/
def Obligations.UnresetRunFaults : Prop :=
  ∀ (b : Build) (σ : Nat → StimWord), stimRst (σ 0) = false →
    ∀ n, runStream σ (State.powerOn b) (n + 1) = .fault (.mf1Unreset 0)

/-! ## The loop -/

/-- R118: in a cycle that is not a TRANSITION the vector leaves no trace: two cycles that differ in it alone have one outcome. -/
def Obligations.InputsIgnoredOutsideTransition : Prop :=
  ∀ (s : State) (rst done : Bool) (v w : InVec) (rest : List StimWord),
    (∀ u, (s.drive (stimWord rst done v :: rest)).fetch ≠ some (.transition u)) →
    step (s.drive (stimWord rst done v :: rest)) = step (s.drive (stimWord rst done w :: rest))

/-- R119: a self-loop enters the state again: `S` and `PH` are written, the outputs keep their values, and the wait is requested
again for the same dwell. -/
def Obligations.SelfLoopStartsANewIteration : Prop :=
  ∀ (s : State) (code : StateCode), s.S = some code → s.PH = some .wait → code.toNat < 12 → stimRst s.stim = false →
    stimDone s.stim = true → s.hw.next code (stimVec s.stim) = some code →
    step s = .next (s.writeLoop code .issue).tick ∧
    ∃ light ped ticks, s.hw.light code = some light ∧ s.hw.ped code = some ped ∧ s.hw.dwell code = some ticks ∧
      s.ports = .ok ⟨light, ped, false, ticks, code⟩ ∧
      (s.writeLoop code .issue).tick.ports =
        .ok ⟨light, ped, !stimRst (s.writeLoop code .issue).tick.stim, ticks, code⟩

/-- R120: a dwell of 0 is requested like any other, and the shortest iteration is 2 cycles. -/
def Obligations.ZeroDwellIsRequested : Prop :=
  ∀ (s : State) (code : StateCode) (σ τ : StimWord), s.S = some code → s.PH = some .issue → code.toNat < 12 →
    s.hw.dwell code = some 0 → stimRst σ = false → stimRst τ = false →
    (s.drive [σ, τ]).waitStart = true ∧ (s.drive [σ, τ]).waitTicks = .ok 0 ∧
    (stimDone τ = false → ∃ t, runWords [σ, τ] s = .next t ∧ t.S = some code ∧ t.PH = some .wait) ∧
    (stimDone τ = true → ∃ t, runWords [σ, τ] s = .next t ∧ t.S = s.hw.next code (stimVec τ) ∧ t.PH = some .issue)

/-- R115, R117: an iteration of a state: one ISSUE cycle, any number of WAIT_HOLD cycles and one TRANSITION cycle, k + 2 in all.
Every cycle shows the state's row; the one request is in the first, for `DWELL(s)` ticks; the last moves to the next state. -/
def Obligations.IterationOfAState : Prop :=
  ∀ (s : State) (code : StateCode) (first last : StimWord) (holds : List StimWord), s.S = some code → s.PH = some .issue →
    code.toNat < 12 → stimRst first = false → (∀ σ ∈ holds, stimRst σ = false ∧ stimDone σ = false) → stimRst last = false →
    stimDone last = true →
    (∃ n, s.hw.next code (stimVec last) = some n ∧
      runWords (first :: (holds ++ [last])) s =
        .next { s with S := some n, PH := some .issue, stimulus := [], cycle := s.cycle + (holds.length + 2) }) ∧
    ∀ j, j < holds.length + 2 →
      ∃ t light ped ticks, runFor j (s.drive (first :: (holds ++ [last]))) = .next t ∧ t.hw = s.hw ∧
        t.fetch = some (if j = 0 then .issue else if j = holds.length + 1 then .transition (stimVec last) else .waitHold) ∧
        t.hw.light code = some light ∧ t.hw.ped code = some ped ∧ t.hw.dwell code = some ticks ∧
        t.ports = .ok ⟨light, ped, decide (j = 0), ticks, code⟩

/-- R113, R115, R101: a run of whole iterations is the table's own walk under the sampled vectors, whatever the lengths of the
waits and the inputs during them. -/
def Obligations.IterationsFollowTheTable : Prop :=
  ∀ (s : State) (code : StateCode) (iters : List (InVec × Nat × InVec)), s.hw.romValid = true → s.S = some code →
    code.toNat < 12 → s.PH = some .issue →
    ∃ n t, s.hw.path (fun j => (iters.getD j (0, 0, 0)).1) code iters.length = some n ∧
      runWords (iters.flatMap fun i => iterWords i.1 i.2.1 i.2.2) s = .next t ∧ t.hw = s.hw ∧ t.S = some n ∧
      t.PH = some .issue

/-- R96 (property P6): with the idle vector at every TRANSITION a block whose table passes P6 shows the rows 0, 1, 2, 3, 0, ... in
that order, one per iteration, and no row shown grants both greens. -/
def Obligations.IdleAlternation : Prop :=
  ∀ (s : State) (d : CodeDecode s.hw.params) (waits : List (Nat × InVec)), s.hw.p6 d = true → s.S = some 0 →
    s.PH = some .issue →
    ∃ t, runWords (waits.flatMap fun i => iterWords 0 i.1 i.2) s = .next t ∧ t.hw = s.hw ∧
      t.S = some (BitVec.ofNat 4 (waits.length % 4)) ∧ t.PH = some .issue ∧
      s.hw.p3At d (BitVec.ofNat 4 (waits.length % 4)) = true

/-- R124: if the timer answers every wait and `rst` stays 0, a running block never stops making transitions. -/
def Obligations.TimerMakesProgress : Prop :=
  ∀ (s : State) (σ : Nat → StimWord), s.Running → (∀ n, stimRst (σ n) = false) → TimerReturns σ s →
    ∀ n, ∃ m t u, n ≤ m ∧ runStream σ s m = .next t ∧ t.PH = some .wait ∧ stimDone (σ m) = true ∧
      runStream σ s (m + 1) = .next u ∧ u.PH = some .issue

/-- R117, with the timer's duty 1 of R147 as its premise: in a run that starts in an ISSUE phase every TRANSITION comes after a
completed request, made in the same visit to the same state, for exactly that state's dwell. -/
def Obligations.DwellIsHonoured : Prop :=
  ∀ (s : State) (σ : Nat → StimWord) (completed : Nat → Nat → Prop), s.Running → s.PH = some .issue →
    TimerIsHonest completed σ s →
    ∀ n t v, InCycle σ s n t → t.fetch = some (.transition v) →
      ∃ r u ticks, r < n ∧ completed r n ∧ InCycle σ s r u ∧ u.waitStart = true ∧ u.S = t.S ∧ u.waitTicks = .ok ticks ∧
        (∀ code, u.S = some code → u.hw.dwell code = some ticks) ∧
        ∀ m w, r ≤ m → m ≤ n → InCycle σ s m w → w.S = t.S

/-! ## Conformance properties -/

/-- The list the model computes is the set `Reach` of R90. -/
def Obligations.ReachListIsReach : Prop :=
  ∀ (b : Build) (code : StateCode), code ∈ b.reachList ↔ b.Reach code

/-- The checks for P2, P3 and P10 decide the properties as R92, R93 and R100 word them. -/
def Obligations.ChecksDecideTheProperties : Prop :=
  ∀ (b : Build) (d : CodeDecode b.params),
    (b.checkP2 d = true ↔ b.P2 d) ∧ (b.checkP3 d = true ↔ b.P3 d) ∧ (b.checkP10 = true ↔ b.P10)

/-- The check for P5 decides the property as R95 words it, over all endless input sequences. -/
def Obligations.PedestrianCheckDecidesService : Prop :=
  ∀ b : Build, b.checkP5 = true ↔ b.P5

/-- R93 on the running block: with a table that passes P3, no reachable running state shows both greens. -/
def Obligations.NoConflictingGreensShown : Prop :=
  ∀ (s : State) (d : CodeDecode s.hw.params) (light : BitVec s.hw.params.lightW), s.hw.P3 d → s.Reachable → s.Running →
    s.lightOut = .ok light → ¬(d.greenNS light = true ∧ d.greenEW light = true)

/-- R92 on the running block: with a table that passes P2, no TRANSITION goes from one green to the opposite green. -/
def Obligations.NoGreenToOppositeGreen : Prop :=
  ∀ (s t : State) (d : CodeDecode s.hw.params) (v : InVec) (code n : StateCode), s.hw.P2 d → s.Reachable →
    s.S = some code → s.fetch = some (.transition v) → step s = .next t → t.S = some n →
    (s.hw.lightIs d.greenNS code = true → s.hw.lightIs d.greenEW n = false) ∧
    (s.hw.lightIs d.greenEW code = true → s.hw.lightIs d.greenNS n = false)

/-- R100 on the running block: with a table that passes P10 no run from power-on ever shows a flashing state: the block has no
other way into one. -/
def Obligations.FlashingNeedsATableEntry : Prop :=
  ∀ (b : Build) (σ : Nat → StimWord) (n : Nat) (t : State), b.P10 → runStream σ (State.powerOn b) n = .next t →
    ∀ code, t.S = some code → code ∉ b.flash

/-- R84 on the running block: with a table whose row 0 shows the south green, the light shown from a reset edge on is green on the
north/south road, from whatever state. -/
def Obligations.ResetShowsSouthGreen : Prop :=
  ∀ (s : State) (d : CodeDecode s.hw.params), s.hw.row0SouthGreen d = true → stimRst s.stim = true →
    step s = .next (s.writeLoop 0 .issue).tick ∧
    ∃ light : BitVec s.hw.params.lightW, (s.writeLoop 0 .issue).tick.lightOut = .ok light ∧ d.greenNS light = true

/-- R88's derivation: with the idle cycle of R85, the south green of row 0 and property P2, neither row 1 nor row 3 is west green. -/
def Obligations.CautionRowsAreNotWestGreen : Prop :=
  ∀ (b : Build) (d : CodeDecode b.params), b.idleCycle = true → b.row0SouthGreen d = true → b.P2 d →
    b.lightIs d.greenEW 1 = false ∧ b.lightIs d.greenEW 3 = false

/-- R87, R89: with parameters that pass the check, the indices 0..11 take the twelve roles, each role exactly once. -/
def Obligations.RolesCoverTheTable : Prop :=
  ∀ p : Params, p.wellFormed = true → ((List.range 12).map p.role).Perm (allRoles.map some)
end

