-- ==== Sys2Proof/Laws/State.lean ====
section
/-!
SUPPORT. One lemma per field for every update of the state, so that no proof unfolds a record update.
-/

namespace Sys2Proof.Machine

@[simp] theorem State.drive_hw (s : State) (l : List StimWord) : (s.drive l).hw = s.hw := rfl
@[simp] theorem State.drive_S (s : State) (l : List StimWord) : (s.drive l).S = s.S := rfl
@[simp] theorem State.drive_PH (s : State) (l : List StimWord) : (s.drive l).PH = s.PH := rfl
@[simp] theorem State.drive_stimulus (s : State) (l : List StimWord) : (s.drive l).stimulus = l := rfl
@[simp] theorem State.drive_cycle (s : State) (l : List StimWord) : (s.drive l).cycle = s.cycle := rfl
@[simp] theorem State.drive_stim_cons (s : State) (σ : StimWord) (l : List StimWord) : (s.drive (σ :: l)).stim = σ := rfl

@[simp] theorem State.tick_hw (s : State) : s.tick.hw = s.hw := rfl
@[simp] theorem State.tick_S (s : State) : s.tick.S = s.S := rfl
@[simp] theorem State.tick_PH (s : State) : s.tick.PH = s.PH := rfl
@[simp] theorem State.tick_stimulus (s : State) : s.tick.stimulus = s.stimulus.tail := rfl
@[simp] theorem State.tick_cycle (s : State) : s.tick.cycle = s.cycle + 1 := rfl

variable (s : State) (code : StateCode) (ph : Phase)

@[simp] theorem State.writeLoop_hw : (s.writeLoop code ph).hw = s.hw := rfl
@[simp] theorem State.writeLoop_S : (s.writeLoop code ph).S = some code := rfl
@[simp] theorem State.writeLoop_PH : (s.writeLoop code ph).PH = some ph := rfl
@[simp] theorem State.writeLoop_stimulus : (s.writeLoop code ph).stimulus = s.stimulus := rfl
@[simp] theorem State.writeLoop_cycle : (s.writeLoop code ph).cycle = s.cycle := rfl
@[simp] theorem State.writeLoop_stim : (s.writeLoop code ph).stim = s.stim := rfl

@[simp] theorem State.writePhase_hw : (s.writePhase ph).hw = s.hw := rfl
@[simp] theorem State.writePhase_S : (s.writePhase ph).S = s.S := rfl
@[simp] theorem State.writePhase_PH : (s.writePhase ph).PH = some ph := rfl
@[simp] theorem State.writePhase_stimulus : (s.writePhase ph).stimulus = s.stimulus := rfl
@[simp] theorem State.writePhase_cycle : (s.writePhase ph).cycle = s.cycle := rfl
@[simp] theorem State.writePhase_stim : (s.writePhase ph).stim = s.stim := rfl

@[simp] theorem endCycle_next (t : State) : endCycle (.next t) = .next t.tick := rfl
@[simp] theorem endCycle_fault (f : Fault) : endCycle (.fault f) = .fault f := rfl
@[simp] theorem endCycle_refused (r : Refusal) : endCycle (.refused r) = .refused r := rfl

end Sys2Proof.Machine
end

