-- ==== Sys2Proof/Laws/Ops.lean ====
section
/-!
SUPPORT. One lemma per shared operation that says what it can do: the ROM reads, the guards of R114, the next-state lookup, the
fetch of a cycle.
-/

namespace Sys2Proof

/-- A next-state address is in the populated part of `NS_ROM` exactly for a legal code (R63, R40). -/
theorem nsAddr_toNat (s : StateCode) (v : InVec) : (nsAddr s v).toNat = 8 * s.toNat + v.toNat := by
  revert s v; decide

/-- NEXT_LOOKUP has a word exactly for a legal code (R45, R83). -/
theorem Build.next_isSome (b : Build) (s : StateCode) (v : InVec) : (b.next s v).isSome = decide (s.toNat < 12) := by
  have hv := v.isLt
  unfold Build.next Build.readNs
  rw [nsAddr_toNat]
  split <;> simp <;> omega

/-- OUTPUT_SELECT and DWELL_SELECT have a word exactly for a legal code (R45, R81, R82). -/
theorem Build.readOut_isSome (b : Build) (s : StateCode) : (b.readOut s).isSome = decide (s.toNat < 12) := by
  unfold Build.readOut
  split <;> simp_all

/-- A legal code has a next state for every vector. -/
theorem Build.exists_next (b : Build) {s : StateCode} (h : s.toNat < 12) (v : InVec) : ∃ n, b.next s v = some n :=
  Option.isSome_iff_exists.1 (by simp [Build.next_isSome, h])

/-- A legal code has a row in `OUT_ROM`. -/
theorem Build.exists_row (b : Build) {s : StateCode} (h : s.toNat < 12) : ∃ w, b.readOut s = some w :=
  Option.isSome_iff_exists.1 (by simp [Build.readOut_isSome, h])

/-- In a ROM that passes the build check every next state is legal (R44). -/
theorem Build.next_lt (b : Build) (h : b.romValid = true) {s n : StateCode} {v : InVec} (hn : b.next s v = some n) :
    n.toNat < 12 := by
  have hv := v.isLt
  have hs : s.toNat < 12 := by simpa [hn] using (b.next_isSome s v).symm
  unfold Build.next Build.readNs at hn
  split at hn
  · have key := of_decide_eq_true h ⟨s.toNat, hs⟩ ⟨v.toNat, hv⟩
    simp only [nsAddr_toNat, Option.some.injEq] at hn
    rwa [hn] at key
  · cases hn

namespace Machine

/-- What the guards of R114 can do: a fault with its cause, or the continuation on legal, written registers. -/
theorem State.withLoop_cases (s : State) (k : StateCode → Phase → Host.Outcome State Fault Refusal) :
    ((s.S = none ∨ s.PH = none) ∧ s.withLoop k = .fault (.mf1Unreset s.cycle)) ∨
    (∃ code ph, s.S = some code ∧ s.PH = some ph ∧ 12 ≤ code.toNat ∧ s.withLoop k = .fault (.mf2IllegalState s.cycle code)) ∨
    (∃ code ph, s.S = some code ∧ s.PH = some ph ∧ code.toNat < 12 ∧ s.withLoop k = k code ph) := by
  unfold State.withLoop
  split
  · rename_i code ph hS hPH
    by_cases h : code.toNat < 12
    · exact .inr (.inr ⟨code, ph, hS, hPH, h, by simp [h]⟩)
    · exact .inr (.inl ⟨code, ph, hS, hPH, by omega, by simp [h]⟩)
  · rename_i h
    refine .inl ⟨?_, rfl⟩
    cases hS : s.S with
    | none => exact .inl rfl
    | some code =>
      cases hPH : s.PH with
      | none => exact .inr rfl
      | some ph => exact (h code ph hS hPH).elim

/-- The guards pass on legal, written registers. -/
theorem State.withLoop_legal {s : State} {code : StateCode} {ph : Phase} (hS : s.S = some code) (hPH : s.PH = some ph)
    (h : code.toNat < 12) (k : StateCode → Phase → Host.Outcome State Fault Refusal) : s.withLoop k = k code ph := by
  simp [State.withLoop, hS, hPH, h]

/-- The next-state lookup of a legal code answers the ROM's word. -/
theorem State.withNext_some {s : State} {code n : StateCode} {v : InVec} (h : s.hw.next code v = some n)
    (k : StateCode → Host.Outcome State Fault Refusal) : s.withNext code v k = k n := by
  simp [State.withNext, h]

end Machine

end Sys2Proof
end

