-- ==== Sys2Proof/Laws/PerInstr.lean ====
section
/-!
SUPPORT. Per-operation facts about the operations as syntax, one lemma per constructor.
-/

namespace Sys2Proof.Laws.OpcodeRow

/-- The control word of an operation's encoding matches its own row of the opcode table and no other (R67), and its operand is in
range (R61). -/
def Statement (i : Instr) : Prop :=
  (opcodeRows.filter fun r => r.covers (wordControl (encode i))).map OpcodeRow.mnemonic = [i.mnemonic] ∧ i.wellFormed = true

theorem reset : Statement .reset := by unfold Statement; decide

theorem issue : Statement .issue := by unfold Statement; decide

theorem waitHold : Statement .waitHold := by unfold Statement; decide

theorem transition (v : InVec) : Statement (.transition v) := by unfold Statement; revert v; decide

end Sys2Proof.Laws.OpcodeRow
end

