-- ==== Sys2Proof/Laws/Step.lean ====
section
/-!
SUPPORT. What one step can do, once: the operation a cycle performs, read off `rst`, `PH` and `wait_done`, and the inversion lemma
of `step`, from which every invariant follows by a short case analysis.
-/

namespace Sys2Proof.Machine

/-- The operation of a cycle, with the conditions that select it (R67, R144). -/
theorem State.fetch_eq (s : State) :
    s.fetch =
      if stimRst s.stim = true then some .reset
      else match s.PH with
        | none => none
        | some .issue => some .issue
        | some .wait => if stimDone s.stim = true then some (.transition (stimVec s.stim)) else some .waitHold := by
  unfold State.fetch State.controlWord
  generalize stimVec s.stim = v
  cases stimRst s.stim <;> cases stimDone s.stim <;> rcases s.PH with _ | _ | _ <;> rfl

/-- Everything a step that answers a next state can have done. -/
theorem step_cases {s t : State} (h : step s = .next t) :
    (stimRst s.stim = true ∧ s.fetch = some .reset ∧ t = (s.writeLoop 0 .issue).tick) ∨
    (∃ code, stimRst s.stim = false ∧ s.S = some code ∧ code.toNat < 12 ∧ s.PH = some .issue ∧ s.fetch = some .issue ∧
      t = (s.writePhase .wait).tick) ∨
    (∃ code, stimRst s.stim = false ∧ s.S = some code ∧ code.toNat < 12 ∧ s.PH = some .wait ∧ stimDone s.stim = false ∧
      s.fetch = some .waitHold ∧ t = s.tick) ∨
    (∃ code n, stimRst s.stim = false ∧ s.S = some code ∧ code.toNat < 12 ∧ s.PH = some .wait ∧ stimDone s.stim = true ∧
      s.fetch = some (.transition (stimVec s.stim)) ∧ s.hw.next code (stimVec s.stim) = some n ∧
      t = (s.writeLoop n .issue).tick) := by
  have hf := s.fetch_eq
  unfold step at h
  by_cases hr : stimRst s.stim = true
  · rw [if_pos hr] at hf
    rw [hf] at h
    cases h
    exact .inl ⟨hr, hf, rfl⟩
  rw [if_neg hr] at hf
  have hr : stimRst s.stim = false := by simpa using hr
  cases hPH : s.PH with
  | none => rw [hPH] at hf; rw [hf] at h; cases h
  | some ph =>
    cases ph with
    | issue =>
      rw [hPH] at hf
      rw [hf] at h
      rcases s.withLoop_cases (fun _ _ => .next (s.writePhase .wait)) with ⟨_, e⟩ | ⟨_, _, _, _, _, e⟩ | ⟨code, _, hS, _, hc, e⟩ <;>
        simp only [exec, execIssue, e, endCycle_fault, endCycle_next] at h <;> cases h
      exact .inr (.inl ⟨code, hr, hS, hc, rfl, hf, rfl⟩)
    | wait =>
      rw [hPH] at hf
      cases hd : stimDone s.stim with
      | false =>
        simp only [hd] at hf
        rw [hf] at h
        rcases s.withLoop_cases (fun _ _ => .next s) with ⟨_, e⟩ | ⟨_, _, _, _, _, e⟩ | ⟨code, _, hS, _, hc, e⟩ <;>
          simp only [exec, execWaitHold, e, endCycle_fault, endCycle_next, Bool.false_eq_true, if_false] at h <;> cases h
        exact .inr (.inr (.inl ⟨code, hr, hS, hc, rfl, rfl, hf, rfl⟩))
      | true =>
        simp only [hd, if_true] at hf
        rw [hf] at h
        rcases s.withLoop_cases (fun code _ => s.withNext code (stimVec s.stim) fun n => .next (s.writeLoop n .issue)) with
          ⟨_, e⟩ | ⟨_, _, _, _, _, e⟩ | ⟨code, _, hS, _, hc, e⟩
        · simp only [exec, execTransition, e, endCycle_fault] at h; cases h
        · simp only [exec, execTransition, e, endCycle_fault] at h; cases h
        · obtain ⟨n, hn⟩ := s.hw.exists_next hc (stimVec s.stim)
          simp only [exec, execTransition, e, s.withNext_some hn, endCycle_next] at h
          cases h
          exact .inr (.inr (.inr ⟨code, n, hr, hS, hc, rfl, rfl, hf, hn, rfl⟩))

end Sys2Proof.Machine
end

