-- ==== Sys2Proof/Laws/Run.lean ====
section
/-!
SUPPORT. The runs: the model's own run is the host's, and a run of a + b steps is a run of b steps after a run of a.
-/

namespace Sys2Proof.Machine

theorem runFor_zero (s : State) : runFor 0 s = .next s := rfl

theorem runFor_succ {s t : State} (h : step s = .next t) (n : Nat) : runFor (n + 1) s = runFor n t := by
  simp [runFor, h]

theorem runFor_add {a : Nat} {s t : State} (h : runFor a s = .next t) (b : Nat) : runFor (a + b) s = runFor b t := by
  induction a generalizing s with
  | zero => cases h; simp
  | succ a ih =>
    rw [Nat.add_right_comm]
    cases e : step s with
    | next u => rw [runFor_succ e] at h ⊢; exact ih h
    | fault f => simp [runFor, e] at h
    | refused r => simp [runFor, e] at h

/-- The host's run of any machine: one step, then the rest, ending where the step ends. -/
theorem core_run_succ (M : Host.Core) (n : Nat) (s : M.State) :
    (∀ t, M.step s = .next t → M.run (n + 1) s = M.run n t) ∧ (∀ f, M.step s = .fault f → M.run (n + 1) s = .fault f) ∧
      ∀ r, M.step s = .refused r → M.run (n + 1) s = .refused r :=
  ⟨fun _ h => by simp [Host.Core.run, h], fun _ h => by simp [Host.Core.run, h], fun _ h => by simp [Host.Core.run, h]⟩

/-- The model's run is the host's run of `core`. -/
theorem runFor_eq_core_run (n : Nat) (s : State) : runFor n s = Sys2Proof.core.run n s := by
  induction n generalizing s with
  | zero => rfl
  | succ n ih =>
    have h := core_run_succ Sys2Proof.core n s
    cases e : step s with
    | next t => exact (runFor_succ e n).trans ((ih t).trans (h.1 t e).symm)
    | fault f => exact Eq.trans (show runFor (n + 1) s = .fault f by simp [runFor, e]) (h.2.1 f e).symm
    | refused r => exact Eq.trans (show runFor (n + 1) s = .refused r by simp [runFor, e]) (h.2.2 r e).symm

/-- A run under a list of words takes them one a cycle. -/
theorem runWords_cons {s t : State} {σ : StimWord} {words : List StimWord} (h : step (s.drive (σ :: words)) = .next t) :
    runWords (σ :: words) s = runFor words.length t :=
  runFor_succ h _

/-- One more cycle of an endless sequence. -/
theorem runStream_succ {σ : Nat → StimWord} {s t : State} {n : Nat} (h : runStream σ s n = .next t) :
    runStream σ s (n + 1) = cycleWith (σ n) t := by
  simp [runStream, h]

end Sys2Proof.Machine
end

