-- ==== Sys2Proof/Tests/Slice0.lean ====
section
/-!
SUPPORT. The model's own tests. Expected results are from spec/95_test_vectors.md, spec/92_eei_decisions.md (the reference ROM,
which is for test vectors only and not the hardware's table) and the rules named; each theorem says which.
-/

namespace Sys2Proof.Tests

-- One theorem at a time: checked side by side, the many closed computations below take a stack each.
set_option Elab.async false

open Sys2Proof Sys2Proof.Machine

/-! ## The reference ROM (D24) -/

def refParams : Params := ⟨6, 2, 32, 5, 6, #v[7, 8, 9, 10, 11], 2⟩

def refRow (light : BitVec 6) (ped : BitVec 2) (dwell : BitVec 32) (next : Vector StateCode 8) : Row refParams :=
  ⟨light, ped, dwell, next⟩

def same (n : StateCode) : Vector StateCode 8 := #v[n, n, n, n, n, n, n, n]

def refTable : Table refParams := ⟨#v[
  refRow 0b100001 0b01 30 #v[1, 1, 1, 1, 4, 4, 4, 4],
  refRow 0b100010 0b01 5 (same 2),
  refRow 0b001100 0b01 30 #v[3, 3, 3, 3, 5, 5, 5, 5],
  refRow 0b010100 0b01 5 (same 0),
  refRow 0b100010 0b01 5 (same 6),
  refRow 0b010100 0b01 5 (same 6),
  refRow 0b100100 0b10 20 #v[0, 2, 0, 2, 0, 2, 0, 2],
  refRow 0b100100 0b01 1 (same 8),
  refRow 0b100100 0b00 1 (same 9),
  refRow 0b100100 0b01 1 (same 10),
  refRow 0b100100 0b00 1 (same 11),
  refRow 0b100100 0b01 1 (same 7)]⟩

def refDecode : CodeDecode refParams where
  greenNS := fun x => x.getLsbD 0
  greenEW := fun x => x.getLsbD 3
  redNS := fun x => x.getLsbD 2
  redEW := fun x => x.getLsbD 5
  walkOn := fun x => x.getLsbD 1

def refBuild : Build := Build.ofTable refParams refTable

/-- The reference ROM with row `s` replaced. -/
def withRow (s : Fin 12) (r : Row refParams) : Table refParams := ⟨refTable.rows.set s.val r⟩

/-- The reference ROM with `next[s][v] := n`. -/
def withNext (s : Fin 12) (v : Fin 8) (n : StateCode) : Table refParams :=
  withRow s { refTable.rows[s.val] with next := (refTable.rows[s.val]).next.set v.val n }

/-- The reference block in a state, with words to be driven. -/
def refState (S : Option StateCode) (PH : Option Phase) (words : List StimWord) : State := ⟨refBuild, S, PH, words, 7⟩

/-- The registers after a step, or the fault. -/
def after (o : Host.Outcome State Fault Refusal) : Except (Option Fault) (Option StateCode × Option Phase) :=
  match o with
  | .next t => .ok (t.S, t.PH)
  | .fault f => .error (some f)
  | .refused _ => .error none

/-- The refusal an outcome holds. -/
def refusal (o : Host.Outcome State Fault Refusal) : Option Refusal :=
  match o with
  | .refused r => some r
  | _ => none

/-! ## The build check: an ill-formed configuration for each check (R142) -/

/-- V-T9: `next[3][5] := 12`, W3 and L3-6. -/
theorem test_rom_check_refuses_entry_12 : refusal (powerUp refParams (withNext 3 5 12)) = some .rf1BadRom := by decide +kernel

/-- V-T10: 11 is the largest legal entry. -/
theorem test_rom_check_admits_entry_11 : (Build.ofTable refParams (withNext 11 7 11)).romValid = true := by decide +kernel

/-- R142's own example: `LIGHT_W == 0`. -/
theorem test_params_refuse_light_width_0 : Params.wellFormed ⟨0, 2, 32, 5, 6, #v[7, 8, 9, 10, 11], 2⟩ = false := by decide

theorem test_params_refuse_ped_width_0 : Params.wellFormed ⟨6, 0, 32, 5, 6, #v[7, 8, 9, 10, 11], 2⟩ = false := by decide

theorem test_params_refuse_dwell_width_0 : Params.wellFormed ⟨6, 2, 0, 5, 6, #v[7, 8, 9, 10, 11], 2⟩ = false := by decide

/-- R89: pairwise distinct. -/
theorem test_params_refuse_shared_role : Params.wellFormed ⟨6, 2, 32, 5, 5, #v[7, 8, 9, 10, 11], 2⟩ = false := by decide

/-- R89: exactly the indices 5..11. -/
theorem test_params_refuse_role_12 : Params.wellFormed ⟨6, 2, 32, 5, 6, #v[7, 8, 9, 10, 12], 2⟩ = false := by decide

theorem test_params_refuse_role_4 : Params.wellFormed ⟨6, 2, 32, 4, 6, #v[7, 8, 9, 10, 11], 2⟩ = false := by decide

theorem test_reference_configuration_admitted : refBuild.wellFormed = true := by decide +kernel

/-! ## Encodings: words written out from the rules -/

/-- 2.1, the control-word table: 111 is RESET. -/
theorem test_decode_reset : decode 0b111 0b000 = .reset := by decide

/-- 2.1: 001 is ISSUE, `wait_done` ignored. -/
theorem test_decode_issue : decode 0b001 0b101 = .issue := by decide

/-- 2.1: 010 is WAIT_HOLD. -/
theorem test_decode_wait_hold : decode 0b010 0b111 = .waitHold := by decide

/-- 2.1: 011 is TRANSITION, with the vector of the cycle: pedestrian only is 0b100 (R61). -/
theorem test_decode_transition : decode 0b011 (packInputs true false false) = .transition 0b100 := by decide

/-- R66: rst is the most significant bit of CW, wait_done the least. -/
theorem test_control_word_order : controlWord true false false = 0b100 ∧ controlWord false false true = 0b001 := by decide

/-- 2.1: nsaddr of (6, 1) is 49, and of (11, 7) is 95. -/
theorem test_next_address : nsAddr 6 1 = 49 ∧ nsAddr 11 7 = 95 := by decide

/-- D24's column of OUT_ROM words: rows 0 and 6. -/
theorem test_output_words : refBuild.outRom[0] = 0x850000001E ∧ refBuild.outRom[6] = 0x9200000014 := by decide

/-- 2.1: a dwell of all ones passes unchanged. -/
theorem test_dwell_all_ones : dwellField 6 2 32 (outWord 0b100010#6 0b01#2 0xFFFFFFFF#32) = 0xFFFFFFFF := by decide

/-- 2.1: answer with v = 110 is 0x0E, reset with done and v = 100 is 0x1C. -/
theorem test_stimulus_words : stimWord false true 0b110 = 0x0E ∧ stimWord true true 0b100 = 0x1C := by decide

/-- L3-2's encoding of its first two statements. -/
theorem test_program_words :
    programWords [.reset, .iterHold 0b000 2 0b100] = [0x10, 0x00, 0x04, 0x04, 0x08] := by decide

/-- L3-3's encoding. -/
theorem test_program_words_with_cyc :
    programWords [.reset, .iter 0, .cyc false false 0, .cyc false false 0, .cyc true true 0b100, .iter 0b110] =
      [0x10, 0x00, 0x08, 0x00, 0x00, 0x1C, 0x00, 0x0E] := by decide

/-- R72: `ITER vvv HOLD k` is `ITER vvv HOLD k 000`. -/
theorem test_iter_hold_idle : Stmt.words (.iterHoldIdle 0b001 1) = [0x00, 0x00, 0x09] := by decide

/-! ## One step each (2.3) -/

/-- V-C3: reset beats done and inputs. -/
theorem test_reset_beats_done : after (step (refState (some 1) (some .wait) [0x1C])) = .ok (some 0, some .issue) := by decide

/-- V-C1 and V-C14: reset is defined from the unwritten state and from an illegal one. -/
theorem test_reset_from_every_state :
    after (step ((State.powerOn refBuild).drive [0x10])) = .ok (some 0, some .issue) ∧
    after (step (refState (some 12) (some .wait) [0x10])) = .ok (some 0, some .issue) := by decide

/-- V-C6: done in an ISSUE cycle is ignored. -/
theorem test_issue_ignores_done : after (step (refState (some 0) (some .issue) [0x0F])) = .ok (some 0, some .wait) := by decide

/-- V-C5: the request carries DWELL(0), 30 under the reference ROM. -/
theorem test_issue_request :
    (refState (some 0) (some .issue) [0x00]).ports = .ok ⟨0b100001, 0b01, true, 30, 0⟩ := by decide +kernel

/-- V-C7: a hold ignores all inputs. -/
theorem test_wait_hold : after (step (refState (some 0) (some .wait) [0x07])) = .ok (some 0, some .wait) := by decide

/-- V-C9, W2: 0 goes to 4 with the pedestrian bit alone. -/
theorem test_transition_pedestrian : after (step (refState (some 0) (some .wait) [0x0C])) = .ok (some 4, some .issue) := by
  decide +kernel

/-- V-C2, L3-5: a first cycle without reset is MF1, in cycle 0. -/
theorem test_unreset_faults :
    after (step ((State.powerOn refBuild).drive [0x08])) = .error (some (.mf1Unreset 0)) := by decide

/-- V-C13: ISSUE in state 12 is MF2, with the cycle number and S recorded. -/
theorem test_illegal_state_faults :
    after (step (refState (some 12) (some .issue) [0x00])) = .error (some (.mf2IllegalState 7 12)) := by decide

/-- V-T16: LIGHT(12) is MF2. -/
theorem test_illegal_light_faults :
    (refState (some 12) (some .issue) [0x00]).lightOut = .error (.mf2IllegalState 7 12) := by decide

/-- V-C4: no request in a reset cycle. -/
theorem test_no_request_in_reset_cycle : (refState (some 0) (some .issue) [0x10]).waitStart = false := by decide

/-- V-C10: a self-loop, with `next[6][0] := 6`. -/
theorem test_self_loop :
    after (step ⟨Build.ofTable refParams (withNext 6 0 6), some 6, some .wait, [0x08], 0⟩) = .ok (some 6, some .issue) := by
  decide +kernel

/-- L3-2, cycle 12: the observation line of the answer with v = 100 in state 0. -/
theorem test_observation_line :
    (refState (some 0) (some .wait) [0x0C]).observe =
      .ok ⟨7, 0x0C, some 0, some .wait, ⟨0b100001, 0b01, false, 30, 0⟩, some (.transition 0b100)⟩ := by decide +kernel

/-! ## The first operation after reset is the one placed (log 11) -/

theorem test_fetch_word_reset : (State.reset.withFetchWord 8 0b100).fetch = decodeTableWord 8 0b100 := by decide

theorem test_fetch_word_transition : (State.reset.withFetchWord 8 0b011).fetch = some (.transition 0) := by decide

/-- R85: the hardware's own table sends 0 to 1 with the idle vector. -/
theorem test_first_transition_after_reset :
    after (step (State.reset.withFetchWord 8 0b011)) = .ok (some 1, some .issue) := by decide +kernel

/-! ## The table functions and conformance properties on the reference ROM (2.2) -/

/-- V-T12: row 6. -/
theorem test_row_6 : refBuild.light 6 = some 0b100100 ∧ refBuild.ped 6 = some 0b10 ∧ refBuild.dwell 6 = some 20 := by decide

/-- V-T13, V-T14 and V-T15. -/
theorem test_next_words :
    refBuild.next 2 0b101 = some 5 ∧ refBuild.next 6 1 = some 2 ∧ refBuild.next 6 0 = some 0 ∧ refBuild.next 11 7 = some 7 := by
  decide +kernel

/-- D24: `Reach` of the reference ROM is 0..6. -/
theorem test_reach : (List.range 16).filter (fun n => refBuild.reachList.contains (BitVec.ofNat 4 n)) = [0, 1, 2, 3, 4, 5, 6] := by
  decide +kernel

/-- V-P2 to V-P10: the reference ROM passes. -/
theorem test_p2 : refBuild.checkP2 refDecode = true := by decide +kernel
theorem test_p3 : refBuild.checkP3 refDecode = true := by decide +kernel
theorem test_p4 : refBuild.p4 refDecode = true := by decide +kernel
theorem test_p5 : refBuild.checkP5 = true := by decide +kernel
theorem test_p6 : refBuild.p6 refDecode = true := by decide +kernel
theorem test_p7 : refBuild.p7 = true := by decide +kernel
theorem test_p8 : refBuild.p8 = true := by decide +kernel
theorem test_p9 : refBuild.p9 = true := by decide +kernel
theorem test_p10 : refBuild.checkP10 = true := by decide +kernel

/-- D24's role column and codes: rows 0 to 3 show what their roles say (R84, R88). -/
theorem test_normal_rows : refBuild.normalRows refDecode = true := by decide +kernel

/-- R84: a table whose row 0 shows no green fails (row 0 with row 1's code). -/
theorem test_row_0_without_green_fails :
    (Build.ofTable refParams (withRow 0 (refRow 0b100010 0b01 30 #v[1, 1, 1, 1, 4, 4, 4, 4]))).row0SouthGreen refDecode = false := by
  decide +kernel

/-- R88: a table whose row 2 shows the south green fails. -/
theorem test_row_2_south_green_fails :
    (Build.ofTable refParams (withRow 2 (refRow 0b100001 0b01 30 #v[3, 3, 3, 3, 5, 5, 5, 5]))).row2WestGreen refDecode = false := by
  decide +kernel

/-- R88: a table whose caution row 3 shows the west green fails. -/
theorem test_green_caution_row_fails :
    (Build.ofTable refParams (withRow 3 (refRow 0b001100 0b01 5 (same 0)))).cautionRows refDecode = false := by decide +kernel

/-- R62's table under the reference parameters: 5 is `ACK_W`, 6 is `CROSS`, 7..11 are `FLASH`. -/
theorem test_reference_roles :
    [0, 2, 5, 6, 7, 11, 12].map refParams.role =
      [some .southGreen, some .westGreen, some .westAck, some .crossing, some (.flashing 0), some (.flashing 4), none] := by decide

/-- Log 16: a code 12..15 fails P3, and so does a step of P2 into one. -/
theorem test_code_without_row_fails :
    refBuild.p3At refDecode 12 = false ∧ (Build.ofTable refParams (withNext 1 0 12)).p2At refDecode 1 0 = false := by decide +kernel

/-- V-P2's counter-example: `next[0][0] := 2`. -/
theorem test_p2_fails : (Build.ofTable refParams (withNext 0 0 2)).checkP2 refDecode = false := by decide +kernel

/-- V-P3's: `light[1] := 0b001001`. -/
theorem test_p3_fails :
    (Build.ofTable refParams (withRow 1 (refRow 0b001001 0b01 5 (same 2)))).checkP3 refDecode = false := by decide +kernel

/-- V-P4's: `ped[6] := 0b01`. -/
theorem test_p4_fails :
    (Build.ofTable refParams (withRow 6 (refRow 0b100100 0b01 20 #v[0, 2, 0, 2, 0, 2, 0, 2]))).p4 refDecode = false := by
  decide +kernel

/-- V-P5's: `next[4][*] := 0`. -/
theorem test_p5_fails : (Build.ofTable refParams (withRow 4 (refRow 0b100010 0b01 5 (same 0)))).checkP5 = false := by
  decide +kernel

/-- V-P6's: `next[1][0] := 1`. -/
theorem test_p6_fails : (Build.ofTable refParams (withNext 1 0 1)).p6 refDecode = false := by decide +kernel

/-- V-P7's: `next[0][2] := 2`. -/
theorem test_p7_fails : (Build.ofTable refParams (withNext 0 2 2)).p7 = false := by decide +kernel

/-- V-P8's: `next[2][5] := 3`. -/
theorem test_p8_fails : (Build.ofTable refParams (withNext 2 5 3)).p8 = false := by decide +kernel

/-- V-P9's: `next[9][3] := 7`. -/
theorem test_p9_fails : (Build.ofTable refParams (withNext 9 3 7)).p9 = false := by decide +kernel

/-- V-P10's: `next[6][7] := 7`. -/
theorem test_p10_fails : (Build.ofTable refParams (withNext 6 7 7)).checkP10 = false := by decide +kernel

/-! ## Witnesses: for every statement with hypotheses, a state and operands that meet all of them, clause by clause, at the ends of
the ranges -/

theorem witness_NextAddressIsConcatenation : (11 : StateCode).toNat < 12 ∧ (nsAddr 11 7).toNat = 95 := by decide

theorem witness_OutputWordFields : ∃ w, refBuild.readOut 11 = some w := ⟨_, rfl⟩

theorem witness_ResetRegisters :
    stimRst (refState none none [0x10]).stim = true ∧ (refState (some 0) (some .issue) []).S = some 0 ∧
    (refState (some 0) (some .issue) []).PH = some .issue ∧ stimRst 0x0F = false := by decide

theorem witness_ControlWordIsFormed : (refState (some 15) (some .wait) []).PH = some .wait := rfl

theorem witness_UnpopulatedWordsAreNotRead :
    (95 : NsAddr).toNat < 96 ∧ 96 ≤ (96 : NsAddr).toNat ∧ (11 : StateCode).toNat < 12 ∧ 12 ≤ (12 : StateCode).toNat := by decide

/-- The premise with parameters the check admits, and with parameters it refuses. -/
theorem witness_BuildCheckRefusesBadParameters :
    refBuild.romValid = true ∧ refParams.wellFormed = true ∧
    refusal (powerUp ⟨6, 2, 32, 5, 5, #v[7, 8, 9, 10, 11], 2⟩ ⟨Vector.replicate 12 ⟨0, 0, 0, same 0⟩⟩) = some .rf2BadParam := by
  decide +kernel

theorem witness_NoStepWritesTheRoms : ∃ t, step (refState (some 0) (some .issue) [0x00]) = .next t := ⟨_, rfl⟩

theorem witness_ResetIsColdStart :
    stimRst (refState (some 11) (some .wait) [0x1F]).stim = true ∧ (refState (some 11) (some .wait) [0x1F]).S = some 11 ∧
    refBuild.light 11 = some 0b100100 ∧ refBuild.ped 11 = some 0b01 := by decide

theorem witness_IssueRequestsTheWait :
    ((refState (some 11) (some .issue) [0x00]).S = some 11 ∧ (refState (some 11) (some .issue) [0x00]).PH = some .issue ∧
      (11 : StateCode).toNat < 12 ∧ stimRst (refState (some 11) (some .issue) [0x00]).stim = false) ∧
    (refState none (some .issue) []).S = none ∧
    ((refState (some 12) (some .issue) []).S = some 12 ∧ (refState (some 12) (some .issue) []).PH = some .issue ∧
      12 ≤ (12 : StateCode).toNat) := by decide

theorem witness_WaitHoldWritesNothing :
    ((refState (some 11) (some .wait) [0x07]).S = some 11 ∧ (refState (some 11) (some .wait) [0x07]).PH = some .wait ∧
      (11 : StateCode).toNat < 12 ∧ stimRst (refState (some 11) (some .wait) [0x07]).stim = false ∧
      stimDone (refState (some 11) (some .wait) [0x07]).stim = false) ∧
    (∀ σ ∈ ([0x00, 0x07] : List StimWord), stimRst σ = false ∧ stimDone σ = false) ∧
    (refState none (some .wait) []).S = none ∧ (refState (some 0) none []).PH = none := by decide

theorem witness_TransitionMovesToTheNextState :
    ((refState (some 11) (some .wait) [0x0F]).S = some 11 ∧ (refState (some 11) (some .wait) [0x0F]).PH = some .wait ∧
      (11 : StateCode).toNat < 12 ∧ stimRst (refState (some 11) (some .wait) [0x0F]).stim = false ∧
      stimDone (refState (some 11) (some .wait) [0x0F]).stim = true ∧ refBuild.romValid = true ∧
      refBuild.light 7 = some 0b100100 ∧ refBuild.ped 7 = some 0b01 ∧ refBuild.dwell 7 = some 1) ∧
    (refState none (some .wait) []).S = none ∧
    ((refState (some 12) (some .wait) []).S = some 12 ∧ (refState (some 12) (some .wait) []).PH = some .wait ∧
      12 ≤ (12 : StateCode).toNat) := by decide +kernel

theorem witness_OperationFrames :
    (∃ t, exec .reset (refState none none []) = .next t) ∧ (∃ t, exec .issue (refState (some 0) (some .issue) []) = .next t) ∧
    (∃ t, exec .waitHold (refState (some 11) (some .wait) []) = .next t) ∧
    ∃ t, exec (.transition 7) (refState (some 11) (some .wait) []) = .next t :=
  ⟨⟨_, rfl⟩, ⟨_, rfl⟩, ⟨_, rfl⟩, ⟨_, rfl⟩⟩

theorem witness_StepRunsTheFetchedOperation :
    ((refState (some 0) (some .issue) [0x00]).fetch = some .issue ∧ ∃ t, exec .issue (refState (some 0) (some .issue) [0x00]) = .next t) ∧
    ((refState (some 12) (some .issue) [0x00]).fetch = some .issue ∧
      ∃ f, exec .issue (refState (some 12) (some .issue) [0x00]) = .fault f) ∧
    (refState none none [0x00]).fetch = none :=
  ⟨⟨rfl, _, rfl⟩, ⟨rfl, _, rfl⟩, rfl⟩

/-- One state per branch of the step function, in the order of the clauses. -/
theorem witness_StepFollowsThePriority :
    stimRst (refState none none [0x10]).stim = true ∧
    (stimRst (refState none none [0x08]).stim = false ∧ (refState none none [0x08]).S = none) ∧
    (stimRst (refState (some 12) (some .wait) [0x08]).stim = false ∧ 12 ≤ (12 : StateCode).toNat) ∧
    (stimRst (refState (some 11) (some .issue) [0x0F]).stim = false ∧ (11 : StateCode).toNat < 12) ∧
    (stimRst (refState (some 11) (some .wait) [0x07]).stim = false ∧ stimDone (refState (some 11) (some .wait) [0x07]).stim = false) ∧
    stimRst (refState (some 11) (some .wait) [0x0F]).stim = false ∧ stimDone (refState (some 11) (some .wait) [0x0F]).stim = true := by
  decide

theorem witness_StepFaultsExactlyWhen :
    (∃ f, step (refState none none [0x00]) = .fault f) ∧ ∃ f, step (refState (some 15) (some .wait) [0x00]) = .fault f :=
  ⟨⟨_, rfl⟩, ⟨_, rfl⟩⟩

/-- A step of each operation. -/
theorem witness_StateRegisterHasTwoWriters :
    (∃ t, step (refState none none [0x10]) = .next t) ∧ (∃ t, step (refState (some 0) (some .issue) [0x00]) = .next t) ∧
    (∃ t, step (refState (some 0) (some .wait) [0x00]) = .next t) ∧ ∃ t, step (refState (some 0) (some .wait) [0x08]) = .next t :=
  ⟨⟨_, rfl⟩, ⟨_, rfl⟩, ⟨_, rfl⟩, ⟨_, rfl⟩⟩

/-- A step of each operation, with what the fetch gives. -/
theorem witness_PhaseRegisterWriters :
    (refState none none [0x10]).fetch = some .reset ∧ (refState (some 0) (some .wait) [0x08]).fetch = some (.transition 0) ∧
    (refState (some 0) (some .issue) [0x00]).fetch = some .issue ∧ (refState (some 0) (some .wait) [0x00]).fetch = some .waitHold := by
  decide

theorem witness_PortDrives :
    (refState (some 11) (some .issue) []).S = some 11 ∧ (refState (some 11) (some .issue) []).PH = some .issue ∧
    (11 : StateCode).toNat < 12 := by decide

theorem witness_OutputsAreMoore : (refState (some 11) none []).S = some 11 ∧ (11 : StateCode).toNat < 12 := by decide

theorem witness_PortsAfterReset : stimRst (refState (some 12) (some .wait) [0x10]).stim = true := by decide

theorem witness_IllegalStatePortsFault :
    (refState (some 12) none [0x0F]).S = some 12 ∧ 12 ≤ (12 : StateCode).toNat ∧ stimRst (refState (some 12) none [0x0F]).stim = false := by
  decide

theorem witness_RequestOutstandingExactlyInWait :
    (refState (some 11) (some .wait) []).S = some 11 ∧ (11 : StateCode).toNat < 12 ∧
    (refState (some 11) (some .wait) []).PH = some .wait := by decide

/-- R32 in a state that no run reaches: `PH` alone says that a request is outstanding. -/
theorem test_request_outstanding_at_illegal_state :
    (refState (some 12) (some .wait) []).insideRequest = true ∧ (refState none (some .wait) []).insideRequest = true ∧
    (refState (some 12) (some .issue) []).insideRequest = false := by decide

theorem witness_ResetFromEveryState :
    ([0x10, 0x1F] : List StimWord) ≠ [] ∧ (∀ σ ∈ ([0x10, 0x1F] : List StimWord), stimRst σ = true) ∧ stimRst 0x0F = false := by decide

theorem witness_StepKeepsTheInvariant :
    (refState (some 11) (some .wait) [0x0F]).Inv ∧ ∃ t, step (refState (some 11) (some .wait) [0x0F]) = .next t :=
  ⟨by decide +kernel, _, rfl⟩

theorem witness_StepKeepsReach :
    (refState (some 0) (some .wait) [0x08]).Reachable ∧ ∃ t, step (refState (some 0) (some .wait) [0x08]) = .next t :=
  ⟨fun code h => by cases h; exact .start, _, rfl⟩

theorem witness_NoFaultAfterReset : refBuild.wellFormed = true ∧ StartsWithReset fun _ => 0x10 :=
  ⟨by decide +kernel, (by decide : stimRst 0x10 = true)⟩

theorem witness_UnresetRunFaults : stimRst ((fun _ => 0x0F : Nat → StimWord) 0) = false := by decide

/-- A reset, an ISSUE and a WAIT_HOLD cycle: none is a TRANSITION. -/
theorem witness_InputsIgnoredOutsideTransition :
    (∀ u, ((refState (some 0) (some .wait) []).drive [stimWord true true 5]).fetch ≠ some (.transition u)) ∧
    (∀ u, ((refState (some 0) (some .issue) []).drive [stimWord false true 5]).fetch ≠ some (.transition u)) ∧
    ∀ u, ((refState (some 0) (some .wait) []).drive [stimWord false false 5]).fetch ≠ some (.transition u) := by decide

/-- V-C10's table. -/
theorem witness_SelfLoopStartsANewIteration :
    (Build.ofTable refParams (withNext 6 0 6)).next 6 (stimVec 0x08) = some 6 ∧ (6 : StateCode).toNat < 12 ∧
    stimRst 0x08 = false ∧ stimDone 0x08 = true := by decide +kernel

/-- V-C11's table: `dwell[1] := 0`. -/
theorem witness_ZeroDwellIsRequested :
    (Build.ofTable refParams (withRow 1 (refRow 0b100010 0b01 0 (same 2)))).dwell 1 = some 0 ∧ (1 : StateCode).toNat < 12 ∧
    stimRst 0x00 = false ∧ stimRst 0x08 = false ∧ stimDone 0x00 = false ∧ stimDone 0x08 = true := by decide +kernel

/-- An iteration with two holds, and one with none. -/
theorem witness_IterationOfAState :
    (refState (some 11) (some .issue) []).S = some 11 ∧ (refState (some 11) (some .issue) []).PH = some .issue ∧
    (11 : StateCode).toNat < 12 ∧ stimRst 0x0F = false ∧
    (∀ σ ∈ ([0x07, 0x00] : List StimWord), stimRst σ = false ∧ stimDone σ = false) ∧
    (∀ σ ∈ ([] : List StimWord), stimRst σ = false ∧ stimDone σ = false) ∧ stimRst 0x0C = false ∧ stimDone 0x0C = true := by decide

theorem witness_IterationsFollowTheTable :
    (refState (some 11) (some .issue) []).hw.romValid = true ∧ (refState (some 11) (some .issue) []).S = some 11 ∧
    (11 : StateCode).toNat < 12 ∧ (refState (some 11) (some .issue) []).PH = some .issue := by decide +kernel

theorem witness_IdleAlternation :
    (refState (some 0) (some .issue) []).hw.p6 refDecode = true ∧ (refState (some 0) (some .issue) []).S = some 0 ∧
    (refState (some 0) (some .issue) []).PH = some .issue := by decide +kernel

/-- A timer that answers in every cycle. -/
theorem witness_TimerMakesProgress :
    (refState (some 0) (some .issue) []).Running ∧ (∀ n, stimRst ((fun _ => 0x08 : Nat → StimWord) n) = false) ∧
    TimerReturns (fun _ => 0x08) (refState (some 0) (some .issue) []) :=
  ⟨by decide +kernel, fun _ => (by decide : stimRst 0x08 = false),
    fun n _ _ _ _ => ⟨n, le_refl n, (by decide : stimDone 0x08 = true)⟩⟩

/-- A timer that answers in cycle 1 alone. -/
def answerInCycle1 (n : Nat) : StimWord := if n = 1 then 0x08 else 0x00

/-- The request of cycle 0 is the one answered in cycle 1, and cycle 1 is a TRANSITION. -/
theorem witness_DwellIsHonoured :
    (refState (some 0) (some .issue) []).Running ∧ (refState (some 0) (some .issue) []).PH = some .issue ∧
    TimerIsHonest (fun r n => r < n) answerInCycle1 (refState (some 0) (some .issue) []) ∧
    ∃ t, InCycle answerInCycle1 (refState (some 0) (some .issue) []) 1 t ∧ t.fetch = some (.transition 0) := by
  refine ⟨by decide +kernel, rfl, ?_, _, ⟨_, rfl, rfl⟩, by decide⟩
  intro n t _ _ hd
  have hn : n = 1 := by
    by_contra h
    simp [answerInCycle1, h, stimDone] at hd
  subst hn
  exact ⟨0, ⟨by decide, ⟨_, ⟨_, rfl, rfl⟩, by decide⟩, fun m h1 h2 => by omega⟩, by decide⟩

/-- In the reference ROM every state of `Reach` is one of 0..6 (D24). -/
theorem ref_reach_lt_7 {code : StateCode} (h : refBuild.Reach code) : code.toNat < 7 := by
  have closed : ∀ s : StateCode, s.toNat < 7 → ∀ v : InVec, (refBuild.next s v).all (fun n => decide (n.toNat < 7)) = true := by
    decide +kernel
  induction h with
  | start => decide
  | next v _ hn ih => simpa [hn] using closed _ ih v

theorem witness_NoConflictingGreensShown :
    (refState (some 0) (some .issue) []).hw.P3 refDecode ∧ (refState (some 0) (some .issue) []).Reachable ∧
    (refState (some 0) (some .issue) []).Running ∧ (refState (some 0) (some .issue) []).lightOut = .ok 0b100001 :=
  ⟨fun s hs => (by decide +kernel : ∀ s : StateCode, s.toNat < 7 → refBuild.p3At refDecode s = true) s (ref_reach_lt_7 hs),
    fun code h => by cases h; exact .start, by decide +kernel, by decide +kernel⟩

/-- The reference ROM passes P2 (V-P2), as the property words it. -/
theorem ref_P2 : refBuild.P2 refDecode := fun s hs v =>
  (by decide +kernel : ∀ s : StateCode, s.toNat < 7 → ∀ v : InVec, refBuild.p2At refDecode s v = true) s (ref_reach_lt_7 hs) v

theorem witness_NoGreenToOppositeGreen :
    (refState (some 0) (some .wait) [0x08]).hw.P2 refDecode ∧ (refState (some 0) (some .wait) [0x08]).Reachable ∧
    (refState (some 0) (some .wait) [0x08]).fetch = some (.transition 0) ∧
    (∃ t, step (refState (some 0) (some .wait) [0x08]) = .next t ∧ t.S = some 1) ∧ refBuild.lightIs refDecode.greenNS 0 = true :=
  ⟨ref_P2, fun code h => by cases h; exact .start, by decide, ⟨_, rfl, by decide +kernel⟩, by decide +kernel⟩

theorem witness_ResetShowsSouthGreen :
    (refState (some 2) (some .wait) [0x1F]).hw.row0SouthGreen refDecode = true ∧
    stimRst (refState (some 2) (some .wait) [0x1F]).stim = true := by decide +kernel

theorem witness_CautionRowsAreNotWestGreen :
    refBuild.idleCycle = true ∧ refBuild.row0SouthGreen refDecode = true ∧ refBuild.P2 refDecode :=
  ⟨by decide +kernel, by decide +kernel, ref_P2⟩

theorem witness_RolesCoverTheTable : refParams.wellFormed = true := by decide

theorem witness_FlashingNeedsATableEntry :
    refBuild.P10 ∧ runStream (fun _ => 0x10) (State.powerOn refBuild) 0 = .next (State.powerOn refBuild) := by
  refine ⟨fun f hf hr => ?_, rfl⟩
  have h := ref_reach_lt_7 hr
  exact (by decide +kernel : ∀ f ∈ refBuild.flash, ¬ f.toNat < 7) f hf h

end Sys2Proof.Tests
end

section
/-!
The build check of the parameters (R10, R89, R142) and the outputs as functions of the state (R3).
-/

namespace Sys2Proof

/-- The role indices are distinct and in 5..11 exactly when they are a rearrangement of 5..11 (R89): a list of seven such numbers
has no room for a gap. -/
theorem Params.roleIndices_perm_iff (p : Params) :
    p.roleIndices.Perm [5, 6, 7, 8, 9, 10, 11] ↔ p.roleIndices.Nodup ∧ ∀ r ∈ p.roleIndices, 5 ≤ r ∧ r ≤ 11 := by
  have mem_roles (r : Nat) : r ∈ [5, 6, 7, 8, 9, 10, 11] ↔ 5 ≤ r ∧ r ≤ 11 := by simp; omega
  constructor
  · intro h
    exact ⟨h.nodup_iff.2 (by decide), fun r hr => (mem_roles r).1 (h.mem_iff.1 hr)⟩
  · rintro ⟨hnodup, hrange⟩
    have hsub : p.roleIndices ⊆ [5, 6, 7, 8, 9, 10, 11] := fun r hr => (mem_roles r).2 (hrange r hr)
    exact (hnodup.subperm hsub).perm_of_length_le (by simp [Params.roleIndices])

/-- What the parameter check asks: the widths of R10 and the roles of R89. -/
theorem Params.wellFormed_iff (p : Params) :
    p.wellFormed = true ↔
      1 ≤ p.lightW ∧ 1 ≤ p.pedW ∧ 1 ≤ p.dwellW ∧ p.roleIndices.Perm [5, 6, 7, 8, 9, 10, 11] := by
  simp [Params.wellFormed, Params.roleIndices_perm_iff, and_assoc]

/-- The traffic-light code of a row is the field of its word (R64, R81). -/
theorem Build.light_of_readOut {b : Build} {s : StateCode} {w : BitVec b.params.ow} (h : b.readOut s = some w) :
    b.light s = some (lightField b.params.lightW b.params.pedW b.params.dwellW w) := by
  simp [Build.light, h]

/-- The pedestrian code of a row is the field of its word (R64, R81). -/
theorem Build.ped_of_readOut {b : Build} {s : StateCode} {w : BitVec b.params.ow} (h : b.readOut s = some w) :
    b.ped s = some (pedField b.params.lightW b.params.pedW b.params.dwellW w) := by
  simp [Build.ped, h]

/-- The dwell of a row is the field of its word (R64, R82). -/
theorem Build.dwell_of_readOut {b : Build} {s : StateCode} {w : BitVec b.params.ow} (h : b.readOut s = some w) :
    b.dwell s = some (dwellField b.params.lightW b.params.pedW b.params.dwellW w) := by
  simp [Build.dwell, h]

/-- The word built from five port values has the `rst` it was built from (R70). -/
@[simp] theorem stimRst_stimWord (rst done : Bool) (v : InVec) : stimRst (stimWord rst done v) = rst := by
  revert rst done v; decide

namespace Machine

/-- Power-up with a table that passes the ROM check answers by the parameter check alone (R142). -/
theorem powerUp_of_romValid {p : Params} {t : Table p} (h : (Build.ofTable p t).romValid = true) :
    powerUp p t = if p.wellFormed then .next (State.powerOn (Build.ofTable p t)) else .refused .rf2BadParam := by
  cases hp : p.wellFormed <;> simp [powerUp, h, hp]

/-- A port that has a word to show for the code in `S` shows it, whatever else the state holds. -/
theorem State.rowPort_of_some {w : Nat} {s : State} {code : StateCode} {sel : StateCode → Option (BitVec w)} {x : BitVec w}
    (hS : s.S = some code) (hx : sel code = some x) (free : BitVec w) : s.rowPort sel free = .ok x := by
  simp [State.rowPort, hS, hx]

/-- `light_out` shows the row of the code in `S` (R25). -/
theorem State.lightOut_of_light {s : State} {code : StateCode} {x : BitVec s.hw.params.lightW} (hS : s.S = some code)
    (hx : s.hw.light code = some x) : s.lightOut = .ok x :=
  State.rowPort_of_some hS hx _

/-- `ped_out` shows the row of the code in `S` (R25). -/
theorem State.pedOut_of_ped {s : State} {code : StateCode} {x : BitVec s.hw.params.pedW} (hS : s.S = some code)
    (hx : s.hw.ped code = some x) : s.pedOut = .ok x :=
  State.rowPort_of_some hS hx _

/-- `wait_ticks` shows the row of the code in `S` (R26). -/
theorem State.waitTicks_of_dwell {s : State} {code : StateCode} {x : BitVec s.hw.params.dwellW} (hS : s.S = some code)
    (hx : s.hw.dwell code = some x) : s.waitTicks = .ok x :=
  State.rowPort_of_some hS hx _

/-- `state_q` shows a written `S` (R26). -/
theorem State.stateQ_of_S {s : State} {code : StateCode} (hS : s.S = some code) : s.stateQ = code := by
  simp [State.stateQ, hS]

/-- Of the inputs `wait_start` reads `rst` alone (R26); the cycle number is read while `PH` is unwritten (R36). -/
theorem State.waitStart_congr {s t : State} (hPH : s.PH = t.PH) (hrst : stimRst s.stim = stimRst t.stim)
    (hcycle : s.cycle = t.cycle) : s.waitStart = t.waitStart := by
  simp only [State.waitStart, hPH, hrst, hcycle]

/-- Settles O12: the parameter check is the conjunction of R10 and R89, and it alone decides power-up once the table has passed. -/
theorem buildCheckRefusesBadParameters : Obligations.BuildCheckRefusesBadParameters := by
  unfold Obligations.BuildCheckRefusesBadParameters
  intro p t hrom
  exact ⟨p.wellFormed_iff, powerUp_of_romValid hrom⟩

/-- Settles O26: at a legal code each row output is the ROM's word for `S` in both states, and `wait_start` reads nothing of the
stimulus but `rst`. -/
theorem outputsAreMoore : Obligations.OutputsAreMoore := by
  unfold Obligations.OutputsAreMoore
  constructor
  · intro s code ph words n hS hlegal
    obtain ⟨w, hw⟩ := s.hw.exists_row hlegal
    have hlight := Build.light_of_readOut hw
    have hped := Build.ped_of_readOut hw
    have hdwell := Build.dwell_of_readOut hw
    refine ⟨?_, ?_, ?_, ?_⟩
    · exact Eq.trans (State.lightOut_of_light hS hlight) (State.lightOut_of_light hS hlight).symm
    · exact Eq.trans (State.pedOut_of_ped hS hped) (State.pedOut_of_ped hS hped).symm
    · exact Eq.trans (State.waitTicks_of_dwell hS hdwell) (State.waitTicks_of_dwell hS hdwell).symm
    · exact Eq.trans (State.stateQ_of_S hS) (State.stateQ_of_S hS).symm
  · intro s rst done done' v w words words'
    exact State.waitStart_congr rfl (by simp) rfl

end Machine

end Sys2Proof
end

section
/-!
The registers and the output ports: what a step leaves in `S` and `PH`, and what the ports show of them.
-/

namespace Sys2Proof

/-- A configuration that passes the build check has legal next states only (R44, R142). -/
theorem Build.romValid_of_wellFormed {b : Build} (h : b.wellFormed = true) : b.romValid = true :=
  (Bool.and_eq_true_iff.1 h).2

/-- A legal code has its three output fields (R81, R82). -/
theorem Build.exists_fields (b : Build) {s : StateCode} (h : s.toNat < 12) :
    ∃ light ped ticks, b.light s = some light ∧ b.ped s = some ped ∧ b.dwell s = some ticks := by
  obtain ⟨w, hw⟩ := b.exists_row h
  exact ⟨_, _, _, Build.light_of_readOut hw, Build.ped_of_readOut hw, Build.dwell_of_readOut hw⟩

/-- A code 12..15 has no row in `OUT_ROM` (R45). -/
theorem Build.readOut_illegal (b : Build) {s : StateCode} (h : 12 ≤ s.toNat) : b.readOut s = none :=
  Option.isNone_iff_eq_none.1 (by simp [← Option.not_isSome, Build.readOut_isSome, h])

namespace Machine

section

variable {s t : State} {code : StateCode}

/-- Behind the guards of R114 an operation completes only on legal, written registers. -/
theorem State.withLoop_eq_next {k : StateCode → Phase → Host.Outcome State Fault Refusal} (h : s.withLoop k = .next t) :
    ∃ code ph, s.S = some code ∧ s.PH = some ph ∧ code.toNat < 12 ∧ k code ph = .next t := by
  rcases s.withLoop_cases k with ⟨_, e⟩ | ⟨_, _, _, _, _, e⟩ | ⟨code, ph, hS, hPH, hlegal, e⟩
  · cases e.symm.trans h
  · cases e.symm.trans h
  · exact ⟨code, ph, hS, hPH, hlegal, e.symm.trans h⟩

/-- An ISSUE that completes writes `PH` with WAIT (R111). -/
theorem execIssue_eq_next (h : execIssue s = .next t) : t = s.writePhase .wait := by
  obtain ⟨_, _, _, _, _, e⟩ := State.withLoop_eq_next h
  cases e; rfl

/-- A WAIT_HOLD that completes writes nothing (R112). -/
theorem execWaitHold_eq_next (h : execWaitHold s = .next t) : t = s := by
  obtain ⟨_, _, _, _, _, e⟩ := State.withLoop_eq_next h
  cases e; rfl

/-- A TRANSITION that completes writes `S` with the ROM's entry and `PH` with ISSUE (R113). -/
theorem execTransition_eq_next {v : InVec} (h : execTransition v s = .next t) :
    ∃ code n, s.S = some code ∧ s.hw.next code v = some n ∧ t = s.writeLoop n .issue := by
  obtain ⟨code, _, hS, _, hlegal, e⟩ := State.withLoop_eq_next h
  obtain ⟨n, hn⟩ := s.hw.exists_next hlegal v
  rw [State.withNext_some hn] at e
  cases e
  exact ⟨code, n, hS, hn, rfl⟩

/-- A cycle with `rst == 1` writes `S` with 0 and `PH` with ISSUE, from every state (R110). -/
theorem step_of_rst (h : stimRst s.stim = true) : step s = .next (s.writeLoop 0 .issue).tick := by
  have hf : s.fetch = some .reset := by simp [State.fetch_eq, h]
  simp only [step, hf]
  rfl

/-- A cycle with `PH` unwritten and no reset is MF1 (R36). -/
theorem step_of_PH_unwritten (hrst : stimRst s.stim = false) (hPH : s.PH = none) :
    step s = .fault (.mf1Unreset s.cycle) := by
  have hf : s.fetch = none := by simp [State.fetch_eq, hrst, hPH]
  simp only [step, hf]

/-- No step writes the ROMs (R43). -/
theorem step_hw (h : step s = .next t) : t.hw = s.hw := by
  rcases step_cases h with ⟨_, _, rfl⟩ | ⟨_, _, _, _, _, _, rfl⟩ | ⟨_, _, _, _, _, _, _, rfl⟩ |
    ⟨_, _, _, _, _, _, _, _, _, rfl⟩ <;> rfl

/-- A step over a valid ROM leaves written registers and a legal code in `S` (R21, R44). -/
theorem step_registers (hrom : s.hw.romValid = true) (h : step s = .next t) :
    ∃ code ph, t.S = some code ∧ t.PH = some ph ∧ code.toNat < 12 := by
  rcases step_cases h with ⟨_, _, rfl⟩ | ⟨code, _, hS, hlegal, _, _, rfl⟩ | ⟨code, _, hS, hlegal, hPH, _, _, rfl⟩ |
    ⟨_, n, _, _, _, _, _, _, hn, rfl⟩
  · exact ⟨0, .issue, rfl, rfl, by decide⟩
  · exact ⟨code, .wait, hS, rfl, hlegal⟩
  · exact ⟨code, .wait, hS, hPH, hlegal⟩
  · exact ⟨n, .issue, rfl, rfl, s.hw.next_lt hrom hn⟩

/-- An admitted block with written registers and a legal code is running. -/
theorem State.running_of_registers {ph : Phase} (hwf : s.hw.wellFormed = true) (hS : s.S = some code)
    (hPH : s.PH = some ph) (hlegal : code.toNat < 12) : s.Running :=
  ⟨⟨hwf, by simp [hS, hPH], by simp [State.codeLegal, hS, hlegal]⟩, by simp [hS]⟩

/-- `wait_start` with `PH` written (R26). -/
theorem State.waitStart_of_PH {ph : Phase} (hPH : s.PH = some ph) :
    s.waitStart = decide (ph = .issue ∧ stimRst s.stim = false) := by
  simp [State.waitStart, hPH]

/-- The five output ports of a cycle whose code has its fields (R25, R26). -/
theorem State.ports_of_fields (hS : s.S = some code) {light : BitVec s.hw.params.lightW} {ped : BitVec s.hw.params.pedW}
    {ticks : BitVec s.hw.params.dwellW} (hlight : s.hw.light code = some light) (hped : s.hw.ped code = some ped)
    (hticks : s.hw.dwell code = some ticks) : s.ports = .ok ⟨light, ped, s.waitStart, ticks, code⟩ := by
  simp [State.ports, State.lightOut_of_light hS hlight, State.pedOut_of_ped hS hped, State.waitTicks_of_dwell hS hticks,
    State.stateQ_of_S hS]

/-- Once a run has faulted it stays with that fault (R141). -/
theorem runStream_fault_succ {σ : Nat → StimWord} {f : Fault} {n : Nat} (h : runStream σ s n = .fault f) :
    runStream σ s (n + 1) = .fault f := by
  simp [runStream, h]

/-- A row output of a cycle whose code has no row is MF2, but for a reset cycle (R45, R81, R82). -/
theorem State.rowPort_of_none {w : Nat} {sel : StateCode → Option (BitVec w)} (hS : s.S = some code)
    (hsel : sel code = none) (hrst : stimRst s.stim = false) (free : BitVec w) :
    s.rowPort sel free = .error (.mf2IllegalState s.cycle code) := by
  simp [State.rowPort, hS, hsel, hrst]

/-- Inside a request its ticks are `DWELL(S)` (R32, R111). -/
theorem State.outstandingRequest_of_wait (hS : s.S = some code) (hPH : s.PH = some .wait) :
    s.outstandingRequest = s.hw.dwell code := by
  simp [State.outstandingRequest, hS, hPH]

/-- Ticks are outstanding in WAIT alone (R32). -/
theorem State.PH_of_outstandingRequest_isSome (h : s.outstandingRequest.isSome = true) : s.PH = some .wait := by
  unfold State.outstandingRequest at h
  split at h
  · assumption
  · cases h

end

/-- Settles O35: the ROMs stay as built, and the step's own writes leave written registers with a legal code. -/
theorem stepKeepsTheInvariant : Obligations.StepKeepsTheInvariant := by
  unfold Obligations.StepKeepsTheInvariant
  rintro s t ⟨hwf, -, -⟩ h
  obtain ⟨code, ph, hS, hPH, hlegal⟩ := step_registers (Build.romValid_of_wellFormed hwf) h
  have hrun : t.Running := State.running_of_registers (by rwa [step_hw h]) hS hPH hlegal
  exact ⟨hrun.1, hrun⟩

/-- Settles O18: each operation that completes is its own register write, which touches no other field. -/
theorem operationFrames : Obligations.OperationFrames := by
  unfold Obligations.OperationFrames
  intro s t
  refine ⟨?reset, ?issue, ?waitHold, ?transition⟩
  case reset =>
    intro h
    cases h
    exact ⟨rfl, rfl, rfl⟩
  case issue =>
    intro h
    cases execIssue_eq_next h
    exact ⟨rfl, rfl, rfl, rfl⟩
  case waitHold => exact execWaitHold_eq_next
  case transition =>
    intro v h
    obtain ⟨_, _, _, _, rfl⟩ := execTransition_eq_next h
    exact ⟨rfl, rfl, rfl⟩

/-- Settles O23, by what each operation writes to `S`. -/
theorem stateRegisterHasTwoWriters : Obligations.StateRegisterHasTwoWriters := by
  unfold Obligations.StateRegisterHasTwoWriters
  intro s t h
  rcases step_cases h with ⟨_, hf, rfl⟩ | ⟨_, _, _, _, _, hf, rfl⟩ | ⟨_, _, _, _, _, _, hf, rfl⟩ |
    ⟨code, n, _, hS, _, _, _, hf, hn, rfl⟩
  · exact .inl ⟨hf, rfl⟩
  · exact .inr (.inr ⟨.inl hf, rfl⟩)
  · exact .inr (.inr ⟨.inr hf, rfl⟩)
  · exact .inr (.inl ⟨_, code, hf, hS, hn.symm, rfl⟩)

/-- Settles O24, by what each operation writes to `PH`. -/
theorem phaseRegisterWriters : Obligations.PhaseRegisterWriters := by
  unfold Obligations.PhaseRegisterWriters
  refine ⟨rfl, rfl, fun s t h => ?_⟩
  rcases step_cases h with ⟨_, hf, rfl⟩ | ⟨_, _, _, _, _, hf, rfl⟩ | ⟨_, _, _, _, _, _, hf, rfl⟩ |
    ⟨_, _, _, _, _, _, _, hf, _, rfl⟩ <;> simp [hf]

/-- Settles O25: a legal code has its fields, and the ports show them. -/
theorem portDrives : Obligations.PortDrives := by
  unfold Obligations.PortDrives
  intro s code ph hS hPH hlegal
  obtain ⟨light, ped, ticks, hlight, hped, hticks⟩ := s.hw.exists_fields hlegal
  refine ⟨light, ped, ticks, hlight, hped, hticks, ?_⟩
  rw [State.ports_of_fields hS hlight hped hticks, State.waitStart_of_PH hPH]

/-- Settles O27: the reset edge leaves S = 0 and PH = ISSUE, whose ports O25 gives. -/
theorem portsAfterReset : Obligations.PortsAfterReset := by
  unfold Obligations.PortsAfterReset
  intro s hrst
  obtain ⟨light, ped, ticks, hlight, hped, hticks, hports⟩ :=
    portDrives (s.writeLoop 0 .issue).tick 0 .issue rfl rfl (by decide)
  refine ⟨_, light, ped, ticks, step_of_rst hrst, rfl, rfl, rfl, hlight, hped, hticks, ?_⟩
  simpa using hports

/-- Settles O30: the reset edge writes both registers, and with these values ISSUE requests the dwell of row 0. -/
theorem resetRegisters : Obligations.ResetRegisters := by
  unfold Obligations.ResetRegisters
  refine ⟨⟨rfl, rfl⟩, fun s hrst => ⟨_, step_of_rst hrst, rfl, rfl⟩, ?request⟩
  case request =>
    intro s σ hS hPH hrst
    obtain ⟨_, _, ticks, _, _, hticks⟩ := s.hw.exists_fields (s := 0) (by decide)
    refine ⟨?_, ticks, hticks, State.waitTicks_of_dwell hS hticks⟩
    rw [State.waitStart_of_PH (s := s.drive [σ]) hPH]
    simpa using hrst

/-- Settles O39, by induction on the number of cycles: the first is MF1, as `PH` is unwritten, and the fault stays. -/
theorem unresetRunFaults : Obligations.UnresetRunFaults := by
  unfold Obligations.UnresetRunFaults
  intro b σ hrst n
  induction n with
  | zero => exact step_of_PH_unwritten (s := (State.powerOn b).drive [σ 0]) hrst rfl
  | succ n ih => exact runStream_fault_succ ih

/-- Settles O28: an illegal code has no row, so none of the three fields of one. -/
theorem illegalStatePortsFault : Obligations.IllegalStatePortsFault := by
  unfold Obligations.IllegalStatePortsFault
  intro s code hS hillegal hrst
  have hrow := s.hw.readOut_illegal hillegal
  exact ⟨State.rowPort_of_none hS (by simp [Build.light, hrow]) hrst _,
    State.rowPort_of_none hS (by simp [Build.ped, hrow]) hrst _,
    State.rowPort_of_none hS (by simp [Build.dwell, hrow]) hrst _⟩

/-- Settles O29: a request stands in WAIT alone, and a legal code has the dwell it is for. -/
theorem requestOutstandingExactlyInWait : Obligations.RequestOutstandingExactlyInWait := by
  unfold Obligations.RequestOutstandingExactlyInWait
  refine ⟨fun s => decide_eq_true_iff, fun s code hS hlegal => ⟨⟨?ticksOnlyInWait, ?waitHasTicks⟩, ?ticksAreDwell⟩⟩
  case ticksOnlyInWait => exact State.PH_of_outstandingRequest_isSome
  case waitHasTicks =>
    intro hPH
    obtain ⟨_, _, ticks, _, _, hticks⟩ := s.hw.exists_fields hlegal
    simp [State.outstandingRequest_of_wait hS hPH, hticks]
  case ticksAreDwell => exact State.outstandingRequest_of_wait hS

end Machine

end Sys2Proof
end

section
/-!
The ROMs of the block: which addresses hold a word, what the block built from a table answers, and the build check on the
table's entries (R40 to R45).
-/

namespace Sys2Proof

section Fields

variable {lw pw dw : Nat} (light : BitVec lw) (ped : BitVec pw) (dwell : BitVec dw)

/-- The most significant field of an output word is the traffic-light code (R64). -/
@[simp] theorem lightField_outWord : lightField lw pw dw (outWord light ped dwell) = light := by
  unfold lightField outWord
  rw [BitVec.extractLsb'_append_eq_of_le (Nat.le_add_left dw pw), Nat.add_sub_cancel, BitVec.extractLsb'_append_eq_left]

/-- The middle field of an output word is the pedestrian code (R64). -/
@[simp] theorem pedField_outWord : pedField lw pw dw (outWord light ped dwell) = ped := by
  unfold pedField outWord
  rw [BitVec.extractLsb'_append_eq_of_le le_rfl, Nat.sub_self, BitVec.extractLsb'_append_eq_right]

/-- The least significant field of an output word is the dwell (R64). -/
@[simp] theorem dwellField_outWord : dwellField lw pw dw (outWord light ped dwell) = dwell :=
  BitVec.extractLsb'_append_eq_right

end Fields

section Reads

variable (b : Build)

/-- A populated address of `NS_ROM` answers its own word (R42). -/
theorem Build.readNs_of_lt {a : NsAddr} (h : a.toNat < 96) : b.readNs a = some b.nsRom[a.toNat] := by
  simp [Build.readNs, h]

/-- `NS_ROM` has no word exactly at its unpopulated addresses 96..127 (R40, R45). -/
theorem Build.readNs_eq_none_iff (a : NsAddr) : b.readNs a = none ↔ 96 ≤ a.toNat := by
  simp [Build.readNs]

/-- A populated address of `OUT_ROM` answers its own word (R42). -/
theorem Build.readOut_of_lt {s : StateCode} (h : s.toNat < 12) : b.readOut s = some b.outRom[s.toNat] := by
  simp [Build.readOut, h]

/-- `OUT_ROM` has no word exactly at its unpopulated addresses 12..15 (R41, R45). -/
theorem Build.readOut_eq_none_iff (s : StateCode) : b.readOut s = none ↔ 12 ≤ s.toNat := by
  simp [Build.readOut]

/-- NEXT_LOOKUP has no word exactly for the codes 12..15 (R45, R83). -/
theorem Build.next_eq_none_iff (s : StateCode) (v : InVec) : b.next s v = none ↔ 12 ≤ s.toNat := by
  have hv := v.isLt
  unfold Build.next
  rw [Build.readNs_eq_none_iff, nsAddr_toNat]
  omega

end Reads

section BuiltRoms

variable (p : Params) (t : Table p)

/-- Word `8*s + v` of the built `NS_ROM` is the table's `next[s][v]` (R40). -/
theorem Build.ofTable_nsRom {s v : Nat} (hs : s < 12) (hv : v < 8) :
    (Build.ofTable p t).nsRom[8 * s + v] = (t.rows[s]).next[v] := by
  have hrow : (8 * s + v) / 8 = s := by omega
  have hentry : (8 * s + v) % 8 = v := by omega
  simp [Build.ofTable, hrow, hentry]

/-- A legal code selects its row's assembled word in the built `OUT_ROM` (R41, R42). -/
theorem Build.ofTable_readOut {s : StateCode} (hs : s.toNat < 12) :
    (Build.ofTable p t).readOut s =
      some (outWord (t.rows[s.toNat]).light (t.rows[s.toNat]).ped (t.rows[s.toNat]).dwell) := by
  rw [Build.readOut_of_lt _ hs]
  simp [Build.ofTable]

/-- LIGHT of the built block is the table's (R81). -/
theorem Build.ofTable_light {s : StateCode} (hs : s.toNat < 12) :
    (Build.ofTable p t).light s = some (t.rows[s.toNat]).light :=
  (Build.light_of_readOut (Build.ofTable_readOut p t hs)).trans (congrArg some (lightField_outWord ..))

/-- PED of the built block is the table's (R81). -/
theorem Build.ofTable_ped {s : StateCode} (hs : s.toNat < 12) :
    (Build.ofTable p t).ped s = some (t.rows[s.toNat]).ped :=
  (Build.ped_of_readOut (Build.ofTable_readOut p t hs)).trans (congrArg some (pedField_outWord ..))

/-- DWELL of the built block is the table's (R82). -/
theorem Build.ofTable_dwell {s : StateCode} (hs : s.toNat < 12) :
    (Build.ofTable p t).dwell s = some (t.rows[s.toNat]).dwell :=
  (Build.dwell_of_readOut (Build.ofTable_readOut p t hs)).trans (congrArg some (dwellField_outWord ..))

/-- NEXT of the built block is the table's (R83): the address of the lookup is where the build placed the entry (R40, R63). -/
theorem Build.ofTable_next {s : StateCode} (hs : s.toNat < 12) (v : InVec) :
    (Build.ofTable p t).next s v = some (t.rows[s.toNat]).next[v.toNat] := by
  have hv := v.isLt
  have haddr : (nsAddr s v).toNat < 96 := by rw [nsAddr_toNat]; omega
  unfold Build.next
  rw [Build.readNs_of_lt _ haddr]
  simp only [nsAddr_toNat, Build.ofTable_nsRom p t hs hv]

/-- The build check reads the table's next-state entries and nothing else (R44). -/
theorem Build.ofTable_romValid_iff :
    (Build.ofTable p t).romValid = true ↔
      ∀ (s : Fin 12) (v : Fin 8), ((t.rows[s.val]).next[v.val]).toNat < 12 := by
  simp only [Build.romValid, decide_eq_true_eq, Build.ofTable_nsRom p t (Fin.isLt _) (Fin.isLt _)]

/-- Power-up answers RF1 exactly when the ROM check fails, whatever the parameters (R44, R142). -/
theorem Machine.powerUp_eq_rf1BadRom_iff :
    Machine.powerUp p t = .refused .rf1BadRom ↔ ¬ (Build.ofTable p t).romValid = true := by
  constructor
  · intro h hrom
    rw [Machine.powerUp_of_romValid hrom] at h
    split at h <;> cases h
  · intro hrom
    simp [Machine.powerUp, hrom]

end BuiltRoms

/-- Settles O9: each function of the built block is the table's row at the code of the index. -/
theorem builtRomsHoldTheTable : Obligations.BuiltRomsHoldTheTable := by
  unfold Obligations.BuiltRomsHoldTheTable
  intro p t s v
  have hcode : (BitVec.ofNat 4 s.val).toNat = s.val := by
    rw [BitVec.toNat_ofNat]; omega
  have hlegal : (BitVec.ofNat 4 s.val).toNat < 12 := hcode.trans_lt s.isLt
  have hlight := Build.ofTable_light p t hlegal
  have hped := Build.ofTable_ped p t hlegal
  have hdwell := Build.ofTable_dwell p t hlegal
  have hnext := Build.ofTable_next p t hlegal v
  simp only [hcode] at hlight hped hdwell hnext
  exact ⟨hlight, hped, hdwell, hnext⟩

/-- Settles O10: a read has a word exactly where the ROM is populated, and a lookup's address is populated exactly at a legal
code. -/
theorem unpopulatedWordsAreNotRead : Obligations.UnpopulatedWordsAreNotRead := by
  unfold Obligations.UnpopulatedWordsAreNotRead
  intro b
  exact ⟨fun a => ⟨b.readNs_eq_none_iff a, b.readNs_of_lt⟩, fun s => ⟨b.readOut_eq_none_iff s, b.readOut_of_lt⟩,
    b.next_eq_none_iff⟩

/-- Settles O11: the check is on the table's entries alone, and power-up answers RF1 on its failure alone. -/
theorem buildCheckRefusesBadRom : Obligations.BuildCheckRefusesBadRom := by
  unfold Obligations.BuildCheckRefusesBadRom
  intro p t
  refine ⟨Build.ofTable_romValid_iff p t, ?_⟩
  rw [Machine.powerUp_eq_rf1BadRom_iff, Build.ofTable_romValid_iff]
  simp only [not_forall, not_lt]

/-- Settles O13, by the inversion of a step: no operation writes the block as built. -/
theorem noStepWritesTheRoms : Obligations.NoStepWritesTheRoms := by
  unfold Obligations.NoStepWritesTheRoms
  intro s t h
  exact Machine.step_hw h

end Sys2Proof
end

section
/-!
The encodings: three bits as a word, the packing of the inputs, the control word and its decode, the words of the operations,
and the fields of an output word (R60 to R70).
-/

namespace Sys2Proof

/-- Three bits read as a number, the first most significant: the value of `v` (R60) and of `CW` (R66). -/
theorem toNat_threeBits (hi mid lo : Bool) :
    (BitVec.ofBool hi ++ BitVec.ofBool mid ++ BitVec.ofBool lo).toNat = 4 * hi.toNat + 2 * mid.toNat + lo.toNat := by
  cases hi <;> cases mid <;> cases lo <;> rfl

/-- A word of three bits is put together again from its bits. -/
theorem threeBits_getElem (x : BitVec 3) : BitVec.ofBool x[2] ++ BitVec.ofBool x[1] ++ BitVec.ofBool x[0] = x := by
  revert x; decide

section Inputs

variable (ped ns ew : Bool)

/-- `v` has the value 4*in_ped + 2*in_ns + in_ew (R60). -/
theorem packInputs_toNat : (packInputs ped ns ew).toNat = 4 * ped.toNat + 2 * ns.toNat + ew.toNat :=
  toNat_threeBits ped ns ew

/-- The bits of `v` are the inputs it was packed from, the pedestrian bit most significant (R61). -/
theorem vec_packInputs :
    vecPed (packInputs ped ns ew) = ped ∧ vecNs (packInputs ped ns ew) = ns ∧ vecEw (packInputs ped ns ew) = ew := by
  cases ped <;> cases ns <;> cases ew <;> exact ⟨rfl, rfl, rfl⟩

/-- Packing the unpacked inputs gives the vector again (R61). -/
@[simp] theorem packInputs_vec (v : InVec) : packInputs (vecPed v) (vecNs v) (vecEw v) = v :=
  threeBits_getElem v

/-- Every vector is a legal operand (R61). -/
@[simp] theorem Instr.wellFormed_transition (v : InVec) : (Instr.transition v).wellFormed = true :=
  decide_eq_true v.isLt

end Inputs

section Stimulus

variable (rst done : Bool) (v : InVec)

/-- The word built from five port values has the `wait_done` it was built from (R70). -/
@[simp] theorem stimDone_stimWord : stimDone (stimWord rst done v) = done := by
  revert rst done v; decide

/-- The word built from five port values samples the vector it was built from (R60, R70). -/
@[simp] theorem stimVec_stimWord : stimVec (stimWord rst done v) = v := by
  revert rst done v; decide

end Stimulus

section Control

/-- `CW` has the value 4*rst + 2*PH + wait_done (R66). -/
theorem controlWord_toNat (rst ph done : Bool) :
    (controlWord rst ph done).toNat = 4 * rst.toNat + 2 * ph.toNat + done.toNat :=
  toNat_threeBits rst ph done

/-- A control word is formed again from its own three bits (R66). -/
@[simp] theorem controlWord_getElem (cw : ControlWord) : controlWord cw[2] cw[1] cw[0] = cw :=
  threeBits_getElem cw

/-- The vector selects no operation: every branch of the decode has one name, whatever its operand (R66). -/
theorem decode_mnemonic_eq (cw : ControlWord) (v w : InVec) : (decode cw v).mnemonic = (decode cw w).mnemonic := by
  simp only [decode, apply_ite Instr.mnemonic]
  rfl

/-- A row of the opcode table matches a control word exactly when it is the decoded operation's row (R67). -/
theorem OpcodeRow.covers_eq_mnemonic_decode {r : OpcodeRow} (hr : r ∈ opcodeRows) (cw : ControlWord) (v : InVec) :
    r.covers cw = (r.mnemonic == (decode cw v).mnemonic) := by
  rw [decode_mnemonic_eq cw v 0]
  revert r cw; decide

/-- One row of the opcode table matches, and only one (R67). -/
theorem opcodeRows_covers_length (cw : ControlWord) : (opcodeRows.filter fun r => r.covers cw).length = 1 := by
  revert cw; decide

end Control

section OperationWords

variable (w : InstrWord)

/-- The control word is the low half of an operation word. -/
@[simp] theorem wordControl_append (v : InVec) (cw : ControlWord) : wordControl (v ++ cw) = cw :=
  BitVec.extractLsb'_append_eq_right

/-- The operand is the high half of an operation word. -/
@[simp] theorem wordVector_append (v : InVec) (cw : ControlWord) : wordVector (v ++ cw) = v :=
  BitVec.extractLsb'_append_eq_left

/-- A word put together from its two halves decodes as they do. -/
theorem decodeWord_append (v : InVec) (cw : ControlWord) : decodeWord (v ++ cw) = decode cw v := by
  simp only [decodeWord, wordControl_append, wordVector_append]

/-- Decode inverts encode: an operation's match bits select it, and its operand stands in the high half (R67). -/
@[simp] theorem decodeWord_encode (i : Instr) : decodeWord (encode i) = i := by
  cases i with
  | reset => exact decodeWord_append 0 0b100
  | issue => exact decodeWord_append 0 0b000
  | waitHold => exact decodeWord_append 0 0b010
  | transition v => exact decodeWord_append v 0b011

/-- An operation word read as a number is not too wide, and stands for its own operation. -/
theorem decodeNat_toNat : decodeNat w.toNat = .ok (decodeWord w) := by
  have hwidth : w.toNat < 64 := w.isLt
  simp [decodeNat, hwidth]

/-- The host's view of an operation word is its decoding. -/
theorem decodeTableWord_toNat : decodeTableWord 6 w.toNat = some (decodeWord w) := by
  simp only [decodeTableWord, Nat.mod_eq_of_lt w.isLt, decodeNat_toNat]

end OperationWords

section OutputFields

variable {lw pw dw : Nat}

/-- An output word is assembled again from its three fields (R64): the two codes are its bits from `dw` up, the dwell is the
rest. -/
@[simp] theorem outWord_fields (w : BitVec (lw + pw + dw)) :
    outWord (lightField lw pw dw w) (pedField lw pw dw w) (dwellField lw pw dw w) = w := by
  have hcodes : lightField lw pw dw w ++ pedField lw pw dw w = w.extractLsb' dw (lw + pw) :=
    BitVec.extractLsb'_append_extractLsb'_eq_extractLsb' (Nat.add_comm pw dw)
  unfold outWord
  rw [hcodes]
  exact BitVec.extractLsb'_append_extractLsb'

/-- Word `s` of the built `OUT_ROM` is assembled from row `s` of the table (R41, R64). -/
theorem Build.ofTable_outRom (p : Params) (t : Table p) (s : Fin 12) :
    (Build.ofTable p t).outRom[s.val] = outWord (t.rows[s.val]).light (t.rows[s.val]).ped (t.rows[s.val]).dwell := by
  simp [Build.ofTable]

end OutputFields

namespace Machine

/-- The phase a bit stands for supplies that bit of the control word (R23, R66). -/
@[simp] theorem Phase.bit_ofBit (b : Bool) : (Phase.ofBit b).bit = b := by
  cases b <;> rfl

section

variable {s : State}

/-- With `PH` written the control word is formed from `rst`, `PH` and `wait_done` (R66). -/
theorem State.controlWord_of_PH {ph : Phase} (hPH : s.PH = some ph) :
    s.controlWord = some (Sys2Proof.controlWord (stimRst s.stim) ph.bit (stimDone s.stim)) := by
  simp only [State.controlWord, hPH]

/-- The operation of a cycle is the decoding of its control word, with the cycle's vector (R66, R67). -/
theorem State.fetch_of_controlWord {cw : ControlWord} (h : s.controlWord = some cw) :
    s.fetch = some (decode cw (stimVec s.stim)) := by
  simp only [State.fetch, h, Option.map_some]

/-- A step is the fetched operation and then the edge (R13, R114). -/
theorem step_of_fetch {i : Instr} (h : s.fetch = some i) : step s = endCycle (exec i s) := by
  simp only [step, h]

end

section Placing

variable (s : State) (w : InstrWord)

@[simp] theorem State.placeWord_hw : (s.placeWord w).hw = s.hw := rfl
@[simp] theorem State.placeWord_S : (s.placeWord w).S = s.S := rfl
@[simp] theorem State.placeWord_PH : (s.placeWord w).PH = some (Phase.ofBit (wordControl w)[1]) := rfl
@[simp] theorem State.placeWord_cycle : (s.placeWord w).cycle = s.cycle := rfl
@[simp] theorem State.placeWord_stim :
    (s.placeWord w).stim = stimWord (wordControl w)[2] (wordControl w)[0] (wordVector w) := rfl

/-- Placing a word makes its control word the cycle's: its bits are `rst`, `PH` and `wait_done` (R66). -/
theorem State.placeWord_controlWord : (s.placeWord w).controlWord = some (wordControl w) := by
  rw [State.controlWord_of_PH (s.placeWord_PH w)]
  simp

/-- With a word placed the cycle's fetch is the word's decoding, whatever state it was placed in. -/
theorem State.placeWord_fetch : (s.placeWord w).fetch = some (decodeWord w) := by
  rw [State.fetch_of_controlWord (s.placeWord_controlWord w)]
  simp [decodeWord]

/-- The host's placing of an operation word's number places that word. -/
theorem State.withFetchWord_toNat : s.withFetchWord 6 w.toNat = s.placeWord w := by
  simp [State.withFetchWord, Nat.mod_eq_of_lt w.isLt]

end Placing

/-- Settles O3: an operation's word decodes to it, and the placing hands the fetch exactly that word's control word and vector,
writing `PH` and the stimulus alone. -/
theorem encodedOperationIsFetched : Obligations.EncodedOperationIsFetched := by
  unfold Obligations.EncodedOperationIsFetched
  intro i s
  have hdecode : decodeTableWord 6 (encode i).toNat = some i := by
    rw [decodeTableWord_toNat, decodeWord_encode]
  have hfetch : (s.placeWord (encode i)).fetch = some i := by
    rw [State.placeWord_fetch, decodeWord_encode]
  rw [State.withFetchWord_toNat]
  exact ⟨hdecode, hfetch, step_of_fetch hfetch, s.placeWord_hw _, s.placeWord_S _, s.placeWord_cycle _⟩

/-- Settles O8: the control word is the three bits in R66's order, and the decode's operation does not depend on the vector. -/
theorem controlWordIsFormed : Obligations.ControlWordIsFormed := by
  unfold Obligations.ControlWordIsFormed
  refine ⟨fun s ph hPH => ?_, decode_mnemonic_eq⟩
  have hcw := State.controlWord_of_PH hPH
  exact ⟨_, hcw, controlWord_toNat .., State.fetch_of_controlWord hcw⟩

end Machine

/-- Settles O6: the fields of an assembled word and the word of three fields, at every width, and then the words of a built block
and the functions that read them. -/
theorem outputWordFields : Obligations.OutputWordFields := by
  unfold Obligations.OutputWordFields
  refine ⟨fun lw pw dw => ⟨fun light ped dwell => ?fields, outWord_fields⟩, fun p t s => ?builtWord,
    fun b s w hw => ?rowFunctions⟩
  case fields => exact ⟨lightField_outWord .., pedField_outWord .., dwellField_outWord ..⟩
  case builtWord => exact Build.ofTable_outRom p t s
  case rowFunctions => exact ⟨Build.light_of_readOut hw, Build.ped_of_readOut hw, Build.dwell_of_readOut hw⟩

/-- Settles O1: a row matches exactly when it is the decoded operation's, one row matches, and each of the eight values decodes by
computation. -/
theorem controlWordSelectsOneOperation : Obligations.ControlWordSelectsOneOperation := by
  unfold Obligations.ControlWordSelectsOneOperation
  refine ⟨fun cw v => ⟨?_, opcodeRows_covers_length cw⟩, fun v => ⟨rfl, rfl, rfl, rfl, rfl, rfl, rfl, rfl⟩⟩
  exact List.filter_congr fun r hr => OpcodeRow.covers_eq_mnemonic_decode hr cw v

/-- Settles O4: the packing has R60's value and is inverted by its bits, and the sample of a stimulus word is the packed vector. -/
theorem inputVectorPacking : Obligations.InputVectorPacking := by
  unfold Obligations.InputVectorPacking
  refine ⟨fun ped ns ew => ?_, fun v => ⟨packInputs_vec v, Instr.wellFormed_transition v⟩, fun rst done ped ns ew => ?_⟩
  · exact ⟨packInputs_toNat .., vec_packInputs ..⟩
  · exact stimVec_stimWord ..

/-- Settles O5: the concatenation is 8*s + v, and 8*11 + 7 is 95. -/
theorem nextAddressIsConcatenation : Obligations.NextAddressIsConcatenation := by
  unfold Obligations.NextAddressIsConcatenation
  intro s v
  refine ⟨nsAddr_toNat s v, fun hlegal => ?_⟩
  have hv := v.isLt
  rw [nsAddr_toNat]
  omega

end Sys2Proof
end

section
/-!
The runs: what a cycle with given inputs does to legal registers, the run of a concatenation, one whole iteration, and what every
step of a run keeps (R111 to R115, R125).
-/

namespace Sys2Proof

/-- Only a legal code has a next state (R45). -/
theorem Build.lt_of_next {b : Build} {s n : StateCode} {v : InVec} (h : b.next s v = some n) : s.toNat < 12 := by
  simpa [h] using (b.next_isSome s v).symm

namespace Machine

section Cycles

variable {s : State} {code : StateCode}

/-- An ISSUE cycle on a legal code moves to WAIT (R111). -/
theorem step_of_issue (hS : s.S = some code) (hlegal : code.toNat < 12) (hPH : s.PH = some .issue)
    (hrst : stimRst s.stim = false) : step s = .next (s.writePhase .wait).tick := by
  have hfetch : s.fetch = some .issue := by simp [State.fetch_eq, hrst, hPH]
  rw [step_of_fetch hfetch, exec, execIssue, State.withLoop_legal hS hPH hlegal, endCycle_next]

/-- A WAIT cycle without an answer writes nothing (R112). -/
theorem step_of_waitHold (hS : s.S = some code) (hlegal : code.toNat < 12) (hPH : s.PH = some .wait)
    (hrst : stimRst s.stim = false) (hdone : stimDone s.stim = false) : step s = .next s.tick := by
  have hfetch : s.fetch = some .waitHold := by simp [State.fetch_eq, hrst, hPH, hdone]
  rw [step_of_fetch hfetch, exec, execWaitHold, State.withLoop_legal hS hPH hlegal, endCycle_next]

/-- A WAIT cycle with an answer moves to the ROM's entry for the sampled vector (R113). -/
theorem step_of_transition {n : StateCode} (hS : s.S = some code) (hPH : s.PH = some .wait) (hrst : stimRst s.stim = false)
    (hdone : stimDone s.stim = true) (hn : s.hw.next code (stimVec s.stim) = some n) :
    step s = .next (s.writeLoop n .issue).tick := by
  have hfetch : s.fetch = some (.transition (stimVec s.stim)) := by simp [State.fetch_eq, hrst, hPH, hdone]
  rw [step_of_fetch hfetch, exec, execTransition, State.withLoop_legal hS hPH (Build.lt_of_next hn), State.withNext_some hn,
    endCycle_next]

end Cycles

section Concatenation

variable {s t u : State} {σ : StimWord} {words : List StimWord}

/-- A step reads the current cycle's stimulus word alone: with other words to follow it does the same, and leaves those. -/
theorem step_redrive (h : step (s.drive (σ :: words)) = .next t) (rest : List StimWord) :
    step (s.drive (σ :: rest)) = .next (t.drive rest) := by
  rcases step_cases h with ⟨hrst, _, rfl⟩ | ⟨_, hrst, hS, hlegal, hPH, _, rfl⟩ | ⟨_, hrst, hS, hlegal, hPH, hdone, _, rfl⟩ |
    ⟨_, _, hrst, hS, _, hPH, hdone, _, hn, rfl⟩
  · exact step_of_rst (s := s.drive (σ :: rest)) hrst
  · exact step_of_issue (s := s.drive (σ :: rest)) hS hlegal hPH hrst
  · exact step_of_waitHold (s := s.drive (σ :: rest)) hS hlegal hPH hrst hdone
  · exact step_of_transition (s := s.drive (σ :: rest)) hS hPH hrst hdone hn

/-- After a first cycle that completes, a run under a list of words is the run of the rest. -/
theorem runWords_cons_of_cycleWith (h : cycleWith σ s = .next u) (words : List StimWord) :
    runWords (σ :: words) s = runWords words u :=
  runWords_cons (step_redrive h words)

/-- A run that completes has completed its first cycle and then the rest. -/
theorem runWords_cons_eq_next (h : runWords (σ :: words) s = .next t) :
    ∃ u, cycleWith σ s = .next u ∧ runWords words u = .next t := by
  cases e : step (s.drive (σ :: words)) with
  | next u =>
    have hcycle : cycleWith σ s = .next (u.drive []) := step_redrive e []
    exact ⟨u.drive [], hcycle, (runWords_cons_of_cycleWith hcycle words).symm.trans h⟩
  | fault f => simp [runWords, runFor, e] at h
  | refused r => simp [runWords, runFor, e] at h

/-- A run under a concatenation is the run of the second part from where the first ended (R71). -/
theorem runWords_append (h : runWords words s = .next t) (rest : List StimWord) :
    runWords (words ++ rest) s = runWords rest t := by
  induction words generalizing s with
  | nil => cases h; rfl
  | cons σ words ih =>
    obtain ⟨u, hcycle, hrun⟩ := runWords_cons_eq_next h
    exact (runWords_cons_of_cycleWith hcycle (words ++ rest)).trans (ih hrun)

end Concatenation

section Iteration

variable {s : State} {code : StateCode}

/-- Cycles without an answer leave the block as it is, whatever the other inputs (R112, R115). -/
theorem runWords_holds {holds : List StimWord} (hS : s.S = some code) (hlegal : code.toNat < 12) (hPH : s.PH = some .wait)
    (hholds : ∀ σ ∈ holds, stimRst σ = false ∧ stimDone σ = false) :
    runWords holds s = .next { s with stimulus := [], cycle := s.cycle + holds.length } := by
  induction holds generalizing s with
  | nil => rfl
  | cons σ holds ih =>
    obtain ⟨⟨hrst, hdone⟩, hrest⟩ := List.forall_mem_cons.1 hholds
    have hcycle : cycleWith σ s = .next (s.drive [σ]).tick := step_of_waitHold (s := s.drive [σ]) hS hlegal hPH hrst hdone
    rw [runWords_cons_of_cycleWith hcycle, ih (s := (s.drive [σ]).tick) hS hPH hrest, List.length_cons, Nat.add_comm holds.length,
      ← Nat.add_assoc]
    rfl

/-- The cycle with the answer moves to the ROM's entry for its vector (R113). -/
theorem runWords_transition {n : StateCode} {σ : StimWord} (hS : s.S = some code) (hPH : s.PH = some .wait)
    (hrst : stimRst σ = false) (hdone : stimDone σ = true) (hn : s.hw.next code (stimVec σ) = some n) :
    runWords [σ] s = .next { s with S := some n, PH := some .issue, stimulus := [], cycle := s.cycle + 1 } :=
  runWords_cons_of_cycleWith (step_of_transition (s := s.drive [σ]) hS hPH hrst hdone hn) []

/-- One iteration: the ISSUE cycle, the cycles without an answer, and the TRANSITION to the ROM's entry (R115). -/
theorem runWords_iteration {n : StateCode} {first last : StimWord} {holds : List StimWord} (hS : s.S = some code)
    (hPH : s.PH = some .issue) (hfirst : stimRst first = false) (hholds : ∀ σ ∈ holds, stimRst σ = false ∧ stimDone σ = false)
    (hlast : stimRst last = false) (hdone : stimDone last = true) (hn : s.hw.next code (stimVec last) = some n) :
    runWords (first :: (holds ++ [last])) s =
      .next { s with S := some n, PH := some .issue, stimulus := [], cycle := s.cycle + (holds.length + 2) } := by
  have hlegal := Build.lt_of_next hn
  have hissue : cycleWith first s = .next ((s.drive [first]).writePhase .wait).tick :=
    step_of_issue (s := s.drive [first]) hS hlegal hPH hfirst
  have hwait := runWords_holds (s := ((s.drive [first]).writePhase .wait).tick) hS hlegal rfl hholds
  have hcycle : s.cycle + (holds.length + 2) = s.cycle + 1 + holds.length + 1 := by omega
  rw [runWords_cons_of_cycleWith hissue, runWords_append hwait, hcycle]
  exact runWords_transition hS rfl hlast hdone hn

/-- One iteration as a program writes it, `ITER v HOLD k w` (R72). -/
theorem runWords_iterWords {n : StateCode} {v : InVec} (hS : s.S = some code) (hPH : s.PH = some .issue)
    (hn : s.hw.next code v = some n) (k : Nat) (w : InVec) :
    ∃ t, runWords (iterWords v k w) s = .next t ∧ t.hw = s.hw ∧ t.S = some n ∧ t.PH = some .issue := by
  have hholds : ∀ σ ∈ List.replicate k (stimWord false false w), stimRst σ = false ∧ stimDone σ = false := by
    intro σ hσ
    rw [List.eq_of_mem_replicate hσ]
    exact ⟨stimRst_stimWord .., stimDone_stimWord ..⟩
  exact ⟨_, runWords_iteration (last := stimWord false true v) hS hPH (stimRst_stimWord ..) hholds (stimRst_stimWord ..)
    (stimDone_stimWord ..) (by rwa [stimVec_stimWord]), rfl, rfl, rfl⟩

end Iteration

section Preservation

variable {P : State → Prop} {s t : State}

/-- What every step keeps, a finite run keeps. -/
theorem runFor_keeps (hstep : ∀ s t, P s → step s = .next t → P t) {n : Nat} (hs : P s) (h : runFor n s = .next t) : P t := by
  induction n generalizing s with
  | zero => cases h; exact hs
  | succ n ih =>
    cases e : step s with
    | next u => exact ih (hstep s u hs e) ((runFor_succ e n).symm.trans h)
    | fault f => simp [runFor, e] at h
    | refused r => simp [runFor, e] at h

/-- What every cycle keeps, whatever the collaborators drive, a run under an endless sequence keeps. -/
theorem runStream_keeps (hcycle : ∀ σ s t, P s → cycleWith σ s = .next t → P t) {σ : Nat → StimWord} {n : Nat} (hs : P s)
    (h : runStream σ s n = .next t) : P t := by
  induction n generalizing t with
  | zero => cases h; exact hs
  | succ n ih =>
    cases e : runStream σ s n with
    | next u => exact hcycle (σ n) u t (ih e) ((runStream_succ e).symm.trans h)
    | fault f => simp [runStream, e] at h
    | refused r => simp [runStream, e] at h

end Preservation

end Machine

end Sys2Proof
end

section
/-!
The set `Reach` on the running block: every step keeps `S` in it, and every member is shown by some run from power-on (R90, R100).
-/

namespace Sys2Proof.Machine

/-- Settles O36: a step leaves `S` as it is, or writes it with 0 or with a next state of its value, and `Reach` is closed under
these. -/
theorem stepKeepsReach : Obligations.StepKeepsReach := by
  unfold Obligations.StepKeepsReach
  intro s t hreach h
  rcases step_cases h with ⟨_, _, rfl⟩ | ⟨_, _, _, _, _, _, rfl⟩ | ⟨_, _, _, _, _, _, _, rfl⟩ |
    ⟨code, n, _, hS, _, _, _, _, hn, rfl⟩
  · rintro code ⟨⟩
    exact .start
  · exact hreach
  · exact hreach
  · rintro code ⟨⟩
    exact .next _ (hreach _ hS) hn

/-- A step keeps `S` within the set `Reach` of the block `b`, and the block. -/
theorem step_keeps_reachable_hw {b : Build} {s t : State} (hs : s.Reachable ∧ s.hw = b) (h : step s = .next t) :
    t.Reachable ∧ t.hw = b :=
  ⟨stepKeepsReach s t hs.1 h, (step_hw h).trans hs.2⟩

/-- Before the first reset edge `S` is unwritten, so nothing it holds is outside `Reach`. -/
theorem State.powerOn_reachable (b : Build) : (State.powerOn b).Reachable := by
  rintro code ⟨⟩

/-- Every member of `Reach` is where some run from power-on stands, ready for an iteration: one reset cycle shows 0, and one more
iteration shows a next state. -/
theorem exists_run_of_reach {b : Build} {code : StateCode} (h : b.Reach code) :
    ∃ words t, runWords words (State.powerOn b) = .next t ∧ t.hw = b ∧ t.S = some code ∧ t.PH = some .issue := by
  induction h with
  | start =>
    have hreset : cycleWith (stimWord true false 0) (State.powerOn b) = .next _ :=
      step_of_rst (s := (State.powerOn b).drive [stimWord true false 0]) (stimRst_stimWord ..)
    exact ⟨[stimWord true false 0], _, runWords_cons_of_cycleWith hreset [], rfl, rfl, rfl⟩
  | next v _ hn ih =>
    obtain ⟨words, t, hrun, hhw, hS, hPH⟩ := ih
    obtain ⟨u, hiter, huhw, huS, huPH⟩ := runWords_iterWords hS hPH (hhw ▸ hn) 0 0
    exact ⟨words ++ iterWords v 0 0, u, (runWords_append hrun _).trans hiter, huhw.trans hhw, huS, huPH⟩

/-- Settles O37: a run for every member of `Reach`, and O36 along every run. -/
theorem reachIsWhatRunsShow : Obligations.ReachIsWhatRunsShow := by
  unfold Obligations.ReachIsWhatRunsShow
  intro b code
  constructor
  · intro h
    obtain ⟨words, t, hrun, _, hS, _⟩ := exists_run_of_reach h
    exact ⟨words, t, hrun, hS⟩
  · rintro ⟨words, t, hrun, hS⟩
    obtain ⟨hreach, hhw⟩ := runFor_keeps (P := fun s => s.Reachable ∧ s.hw = b) (s := (State.powerOn b).drive words)
      (fun _ _ => step_keeps_reachable_hw) ⟨State.powerOn_reachable b, rfl⟩ hrun
    exact hhw ▸ hreach code hS

/-- Settles O53: `S` stays in `Reach` in every cycle, and no flashing state is there. -/
theorem flashingNeedsATableEntry : Obligations.FlashingNeedsATableEntry := by
  unfold Obligations.FlashingNeedsATableEntry
  intro b σ n t hP10 hrun code hS hflash
  obtain ⟨hreach, hhw⟩ := runStream_keeps (P := fun s => s.Reachable ∧ s.hw = b)
    (fun τ s _ hs h => step_keeps_reachable_hw (s := s.drive [τ]) hs h) ⟨State.powerOn_reachable b, rfl⟩ hrun
  exact hP10 code hflash (hhw ▸ hreach code hS)

end Sys2Proof.Machine
end

section
/-!
The idle alternation of the first four rows (R85, R96).
-/

namespace Sys2Proof

/-- In the idle cycle of R85 the row `i mod 4` goes to the row `i + 1 mod 4`. -/
theorem Build.idleCycle_next {b : Build} (h : b.idleCycle = true) (i : Nat) :
    b.next (BitVec.ofNat 4 (i % 4)) 0 = some (BitVec.ofNat 4 ((i + 1) % 4)) := by
  simp only [Build.idleCycle, Bool.and_eq_true, decide_eq_true_eq] at h
  obtain ⟨⟨⟨h0, h1⟩, h2⟩, h3⟩ := h
  have hi : i % 4 = 0 ∨ i % 4 = 1 ∨ i % 4 = 2 ∨ i % 4 = 3 := by omega
  rw [Nat.add_mod]
  rcases hi with hi | hi | hi | hi <;> rw [hi]
  · exact h0
  · exact h1
  · exact h2
  · exact h3

/-- P6 speaks of the four rows of the idle cycle: none of them grants both greens (R96). -/
theorem Build.p6_p3At {b : Build} {d : CodeDecode b.params} (h : b.p6 d = true) (i : Nat) :
    b.p3At d (BitVec.ofNat 4 (i % 4)) = true := by
  have hmem : BitVec.ofNat 4 (i % 4) ∈ [(0 : StateCode), 1, 2, 3] := by
    have hi : i % 4 = 0 ∨ i % 4 = 1 ∨ i % 4 = 2 ∨ i % 4 = 3 := by omega
    rcases hi with hi | hi | hi | hi <;> rw [hi] <;> decide
  exact List.all_eq_true.1 (Bool.and_eq_true_iff.1 h).2 _ hmem

namespace Machine

/-- Settles O45, by induction on the iterations from the last: each one moves on by one row of the idle cycle. -/
theorem idleAlternation : Obligations.IdleAlternation := by
  unfold Obligations.IdleAlternation
  intro s d waits hp6 hS hPH
  have hidle : s.hw.idleCycle = true := (Bool.and_eq_true_iff.1 hp6).1
  suffices h : ∃ t, runWords (waits.flatMap fun i => iterWords 0 i.1 i.2) s = .next t ∧ t.hw = s.hw ∧
      t.S = some (BitVec.ofNat 4 (waits.length % 4)) ∧ t.PH = some .issue by
    obtain ⟨t, hrun, hhw, htS, htPH⟩ := h
    exact ⟨t, hrun, hhw, htS, htPH, Build.p6_p3At hp6 _⟩
  induction waits using List.reverseRecOn with
  | nil => exact ⟨s.drive [], rfl, rfl, hS, hPH⟩
  | append_singleton waits wait ih =>
    obtain ⟨t, hrun, hhw, htS, htPH⟩ := ih
    obtain ⟨u, hiter, huhw, huS, huPH⟩ :=
      runWords_iterWords htS htPH (Build.idleCycle_next (hhw ▸ hidle) waits.length) wait.1 wait.2
    refine ⟨u, ?_, huhw.trans hhw, by rw [huS, List.length_append, List.length_singleton], huPH⟩
    rw [List.flatMap_append, runWords_append hrun, List.flatMap_singleton, hiter]

end Machine

end Sys2Proof
end

section
/-!
The checks of the table: the computed list is `Reach` (R90), and the checks for P2, P3, P5 and P10 decide the properties as the
rules word them (R92, R93, R95, R100).
-/

namespace Sys2Proof

/-- The list of the input vectors is complete (R61). -/
theorem mem_allVecs (v : InVec) : v ∈ allVecs := by
  revert v; decide

section Exploration

variable {b : Build} {s n : StateCode} {todo seen : List StateCode} {fuel : Nat}

/-- The next states of a code are its table entries. -/
theorem Build.mem_succs : n ∈ b.succs s ↔ ∃ v, b.next s v = some n := by
  simp [Build.succs, mem_allVecs]

/-- A code has at most one next state per vector. -/
theorem Build.succs_length_le : (b.succs s).length ≤ 8 :=
  List.length_filterMap_le _ _

/-- With nothing to do the exploration answers what it has seen. -/
theorem Build.explore_nil : b.explore fuel [] seen = seen := by
  cases fuel <;> rfl

/-- Exploring from members of `Reach` finds members of `Reach`. -/
theorem Build.reach_of_mem_explore (htodo : ∀ c ∈ todo, b.Reach c) (hseen : ∀ c ∈ seen, b.Reach c) :
    ∀ c ∈ b.explore fuel todo seen, b.Reach c := by
  induction fuel, todo, seen using Build.explore.induct (b := b) with
  | case1 todo seen => exact hseen
  | case2 fuel seen _ => rwa [Build.explore_nil]
  | case3 fuel s todo seen hs ih =>
    rw [Build.explore, if_pos hs]
    exact ih (List.forall_mem_cons.1 htodo).2 hseen
  | case4 fuel s todo seen hs ih =>
    obtain ⟨hreach, hrest⟩ := List.forall_mem_cons.1 htodo
    rw [Build.explore, if_neg hs]
    refine ih (fun c hc => ?_) (List.forall_mem_cons.2 ⟨hreach, hseen⟩)
    rcases List.mem_append.1 hc with hc | hc
    · obtain ⟨v, hv⟩ := Build.mem_succs.1 hc
      exact .next v hreach hv
    · exact hrest c hc

/-- What an exploration keeps: no code is seen twice, every next state of a seen code is seen or still to do, and the fuel covers
one round for each code to do and nine for each code not yet seen. -/
structure Build.ExploreInv (b : Build) (fuel : Nat) (todo seen : List StateCode) : Prop where
  nodup : seen.Nodup
  closed : ∀ s ∈ seen, ∀ n ∈ b.succs s, n ∈ seen ∨ n ∈ todo
  fuel_ge : todo.length + 9 * (16 - seen.length) ≤ fuel

/-- A code seen already leaves the list of what is to do. -/
theorem Build.ExploreInv.skip (h : b.ExploreInv (fuel + 1) (s :: todo) seen) (hs : s ∈ seen) :
    b.ExploreInv fuel todo seen where
  nodup := h.nodup
  closed c hc n hn := by
    rcases h.closed c hc n hn with hn | hn
    · exact .inl hn
    · rcases List.mem_cons.1 hn with rfl | hn
      · exact .inl hs
      · exact .inr hn
  fuel_ge := by
    have hfuel := h.fuel_ge
    rw [List.length_cons] at hfuel
    omega

/-- A new code is seen, and its next states are to do: there are 16 codes, so it is one of those the fuel still covers. -/
theorem Build.ExploreInv.visit (h : b.ExploreInv (fuel + 1) (s :: todo) seen) (hs : s ∉ seen) :
    b.ExploreInv fuel (b.succs s ++ todo) (s :: seen) := by
  have hnodup : (s :: seen).Nodup := List.nodup_cons.2 ⟨hs, h.nodup⟩
  refine ⟨hnodup, List.forall_mem_cons.2 ⟨fun n hn => .inr (List.mem_append_left _ hn), fun c hc n hn => ?_⟩, ?_⟩
  · rcases h.closed c hc n hn with hn | hn
    · exact .inl (List.mem_cons_of_mem _ hn)
    · rcases List.mem_cons.1 hn with rfl | hn
      · exact .inl List.mem_cons_self
      · exact .inr (List.mem_append_right _ hn)
  · have hfuel := h.fuel_ge
    have hsuccs : (b.succs s).length ≤ 8 := Build.succs_length_le
    have hcodes : (s :: seen).length ≤ 16 := hnodup.length_le_card
    simp only [List.length_cons, List.length_append] at *
    omega

/-- An exploration with enough fuel finds everything it was given, and all next states of what it finds. -/
theorem Build.ExploreInv.complete (h : b.ExploreInv fuel todo seen) :
    (∀ c, c ∈ todo ∨ c ∈ seen → c ∈ b.explore fuel todo seen) ∧
      ∀ c ∈ b.explore fuel todo seen, ∀ n ∈ b.succs c, n ∈ b.explore fuel todo seen := by
  induction fuel, todo, seen using Build.explore.induct (b := b) with
  | case1 todo seen =>
    obtain rfl : todo = [] := List.length_eq_zero_iff.1 (by have := h.fuel_ge; omega)
    simpa [Build.explore] using h.closed
  | case2 fuel seen _ => simpa [Build.explore_nil] using h.closed
  | case3 fuel s todo seen hs ih =>
    have hmem : s ∈ seen := List.contains_iff_mem.1 hs
    rw [Build.explore, if_pos hs]
    obtain ⟨hfound, hclosed⟩ := ih (h.skip hmem)
    refine ⟨fun c hc => hfound c ?_, hclosed⟩
    rw [List.mem_cons] at hc
    rcases hc with (rfl | hc) | hc
    exacts [.inr hmem, .inl hc, .inr hc]
  | case4 fuel s todo seen hs ih =>
    rw [Build.explore, if_neg hs]
    obtain ⟨hfound, hclosed⟩ := ih (h.visit (mt List.contains_iff_mem.2 hs))
    refine ⟨fun c hc => hfound c ?_, hclosed⟩
    rw [List.mem_cons] at hc
    rcases hc with (rfl | hc) | hc
    exacts [.inr List.mem_cons_self, .inl (List.mem_append_right _ hc), .inr (List.mem_cons_of_mem _ hc)]

/-- The fuel of the computed list covers the exploration from row 0. -/
theorem Build.exploreInv_start (b : Build) : b.ExploreInv 145 [0] [] :=
  ⟨List.nodup_nil, by simp, by simp⟩

/-- The computed list is `Reach`: the exploration starts in `Reach` and stays there, and what it finds holds 0 and is closed under
next states (R90). -/
theorem Build.mem_reachList_iff : s ∈ b.reachList ↔ b.Reach s := by
  constructor
  · exact Build.reach_of_mem_explore (List.forall_mem_singleton.2 .start) (List.forall_mem_nil _) s
  · obtain ⟨hfound, hclosed⟩ := b.exploreInv_start.complete
    intro h
    induction h with
    | start => exact hfound 0 (.inl List.mem_cons_self)
    | next v _ hn ih => exact hclosed _ ih _ (Build.mem_succs.2 ⟨v, hn⟩)

end Exploration

/-- Settles O48, by what the exploration keeps. -/
theorem reachListIsReach : Obligations.ReachListIsReach := by
  unfold Obligations.ReachListIsReach
  intro b code
  exact Build.mem_reachList_iff

/-- Settles O49: a check over the computed list, and over all vectors, is the property over `Reach`. -/
theorem checksDecideTheProperties : Obligations.ChecksDecideTheProperties := by
  unfold Obligations.ChecksDecideTheProperties
  intro b d
  refine ⟨?p2, ?p3, ?p10⟩
  case p2 => simp only [Build.checkP2, Build.P2, List.all_eq_true, Build.mem_reachList_iff, mem_allVecs, forall_const]
  case p3 => simp only [Build.checkP3, Build.P3, List.all_eq_true, Build.mem_reachList_iff]
  case p10 =>
    simp only [Build.checkP10, Build.P10, List.all_eq_true, Bool.not_eq_true', List.contains_eq_mem, decide_eq_false_iff_not,
      Build.mem_reachList_iff]

section Service

variable {b : Build} {s : StateCode}

/-- The walk of the table one transition on is the walk from the next state under the later vectors. -/
theorem Build.path_succ (u : Nat → InVec) (k : Nat) :
    b.path u s (k + 1) = (b.next s (u 0)).bind fun n => b.path (fun i => u (i + 1)) n k := by
  induction k with
  | zero => simp [Build.path]
  | succ k ih => rw [Build.path, ih, Option.bind_assoc]; rfl

/-- The endless sequence of vectors that begins with `v` and goes on with `u`. -/
def vecThen (v : InVec) (u : Nat → InVec) : Nat → InVec
  | 0 => v
  | i + 1 => u i

/-- The walk under such a sequence goes to the next state for `v` and from there under `u`. -/
theorem Build.path_vecThen_succ (v : InVec) (u : Nat → InVec) (k : Nat) :
    b.path (vecThen v u) s (k + 1) = (b.next s v).bind fun n => b.path u n k :=
  Build.path_succ (vecThen v u) k

/-- `leadsToCross` decides that every endless sequence of vectors shows `CROSS` among the first `k` states of its walk (R95). -/
theorem Build.leadsToCross_iff {k : Nat} :
    b.leadsToCross k s = true ↔ ∀ u : Nat → InVec, ∃ j < k, b.path u s j = some b.cross := by
  induction k generalizing s with
  | zero => simp [Build.leadsToCross]
  | succ k ih =>
    simp only [Build.leadsToCross, Bool.or_eq_true, decide_eq_true_eq, List.all_eq_true, mem_allVecs, forall_const,
      Option.any_eq_true, ih]
    constructor
    · rintro (hcross | hnext) u
      · exact ⟨0, k.succ_pos, congrArg some hcross⟩
      · obtain ⟨n, hn, hall⟩ := hnext (u 0)
        obtain ⟨j, hj, hpath⟩ := hall fun i => u (i + 1)
        exact ⟨j + 1, Nat.succ_lt_succ hj, by rw [Build.path_succ, hn, Option.bind_some, hpath]⟩
    · intro h
      by_cases hcross : s = b.cross
      · exact .inl hcross
      refine .inr fun v => ?_
      have shown_later (u : Nat → InVec) : ∃ n, b.next s v = some n ∧ ∃ j < k, b.path u n j = some b.cross := by
        obtain ⟨j, hj, hpath⟩ := h (vecThen v u)
        cases j with
        | zero => exact absurd (Option.some.inj hpath) hcross
        | succ j =>
          rw [Build.path_vecThen_succ, Option.bind_eq_some_iff] at hpath
          obtain ⟨n, hn, hpath⟩ := hpath
          exact ⟨n, hn, j, Nat.lt_of_succ_lt_succ hj, hpath⟩
      obtain ⟨n, hn, _⟩ := shown_later fun _ => 0
      refine ⟨n, hn, fun u => ?_⟩
      obtain ⟨m, hm, hshown⟩ := shown_later u
      rwa [Option.some.inj (hn.symm.trans hm)]

/-- The states after a green state show `CROSS` within the bound, as the check computes and as R95 counts them. -/
theorem Build.next_leadsToCross_iff {v : InVec} {k : Nat} (hlegal : s.toNat < 12) :
    (b.next s v).any (b.leadsToCross k) = true ↔
      ∀ u : Nat → InVec, ∃ j, 1 ≤ j ∧ j ≤ k ∧ (b.next s v).bind (fun n => b.path u n (j - 1)) = some b.cross := by
  obtain ⟨n, hn⟩ := b.exists_next hlegal v
  simp only [hn, Option.any_some, Option.bind_some, Build.leadsToCross_iff]
  refine forall_congr' fun u => ⟨?_, ?_⟩
  · rintro ⟨j, hj, hpath⟩
    exact ⟨j + 1, Nat.le_add_left 1 j, hj, hpath⟩
  · rintro ⟨j, hpos, hj, hpath⟩
    exact ⟨j - 1, by omega, hpath⟩

end Service

/-- Settles O50: at each of the two green states and each vector with the pedestrian bit, the check asks what P5 asks. -/
theorem pedestrianCheckDecidesService : Obligations.PedestrianCheckDecidesService := by
  unfold Obligations.PedestrianCheckDecidesService
  intro b
  have hgreen : ∀ g ∈ [(0 : StateCode), 2], g.toNat < 12 := by decide
  simp only [Build.checkP5, Build.P5, List.all_eq_true, List.mem_filter, mem_allVecs, true_and]
  exact forall₂_congr fun g hg => forall₂_congr fun v _ => Build.next_leadsToCross_iff (hgreen g hg)

end Sys2Proof
end

section
/-!
The properties of the table on the running block: the light shown, the light after a TRANSITION and after a reset edge, and the
caution rows (R84, R88, R92, R93).
-/

namespace Sys2Proof

section Lights

variable {b : Build} {d : CodeDecode b.params} {s n : StateCode} {v : InVec}

/-- P2 at a state and vector: the next state is not green where the opposite direction was (R92). -/
theorem Build.p2At_next (h : b.p2At d s v = true) (hn : b.next s v = some n) :
    (b.lightIs d.greenNS s = true → b.lightIs d.greenEW n = false) ∧
      (b.lightIs d.greenEW s = true → b.lightIs d.greenNS n = false) := by
  obtain ⟨x, hx, h⟩ := (Option.any_eq_true ..).1 h
  rw [hn, Option.any_some] at h
  obtain ⟨y, hy, h⟩ := (Option.any_eq_true ..).1 h
  simp only [Bool.and_eq_true, Bool.or_eq_true, Bool.not_eq_true'] at h
  obtain ⟨hNS, hEW⟩ := h
  simp only [Build.lightIs, hx, hy, Option.any_some]
  exact ⟨fun hx => hNS.resolve_left (by simp [hx]), fun hx => hEW.resolve_left (by simp [hx])⟩

/-- P3 at a state: its light does not grant both greens (R93). -/
theorem Build.p3At_light {x : BitVec b.params.lightW} (h : b.p3At d s = true) (hx : b.light s = some x) :
    ¬(d.greenNS x = true ∧ d.greenEW x = true) := by
  simpa [Build.p3At, hx, imp_iff_not_or] using h

end Lights

/-- Settles O55: P2 at the entry from row 0 to row 1, and at the entry from row 3 back to row 0. -/
theorem cautionRowsAreNotWestGreen : Obligations.CautionRowsAreNotWestGreen := by
  unfold Obligations.CautionRowsAreNotWestGreen
  intro b d hidle hsouth hP2
  have h01 : b.next 0 0 = some 1 := Build.idleCycle_next hidle 0
  have h12 : b.next 1 0 = some 2 := Build.idleCycle_next hidle 1
  have h23 : b.next 2 0 = some 3 := Build.idleCycle_next hidle 2
  have h30 : b.next 3 0 = some 0 := Build.idleCycle_next hidle 3
  have hreach3 : b.Reach 3 := .next 0 (.next 0 (.next 0 .start h01) h12) h23
  refine ⟨(Build.p2At_next (hP2 0 .start 0) h01).1 hsouth, Bool.eq_false_iff.2 fun hwest => ?_⟩
  have hnotSouth : b.lightIs d.greenNS 0 = false := (Build.p2At_next (hP2 3 hreach3 0) h30).2 hwest
  exact Bool.eq_false_iff.1 hnotSouth hsouth

namespace Machine

/-- A running state holds a legal code. -/
theorem State.Running.exists_code {s : State} (h : s.Running) : ∃ code, s.S = some code ∧ code.toNat < 12 := by
  obtain ⟨⟨_, _, hlegal⟩, hwritten⟩ := h
  obtain ⟨code, hS⟩ := Option.isSome_iff_exists.1 hwritten
  exact ⟨code, hS, by simpa [State.codeLegal, hS] using hlegal⟩

/-- Settles O51: the light shown is the one of the row in `S`, which P3 speaks of. -/
theorem noConflictingGreensShown : Obligations.NoConflictingGreensShown := by
  unfold Obligations.NoConflictingGreensShown
  intro s d light hP3 hreach hrun hlight
  obtain ⟨code, hS, hlegal⟩ := hrun.exists_code
  obtain ⟨x, _, _, hx, _, _⟩ := s.hw.exists_fields hlegal
  obtain rfl : x = light := Except.ok.inj ((State.lightOut_of_light hS hx).symm.trans hlight)
  exact Build.p3At_light (hP3 code (hreach code hS)) hx

/-- A step that performs a TRANSITION writes `S` with the next state for its vector (R113). -/
theorem step_next_of_transition {s t : State} {v : InVec} {code n : StateCode} (hS : s.S = some code)
    (hfetch : s.fetch = some (.transition v)) (h : step s = .next t) (htS : t.S = some n) : s.hw.next code v = some n := by
  rcases stateRegisterHasTwoWriters s t h with ⟨hreset, _⟩ | ⟨w, c, hw, hc, hnext, _⟩ | ⟨hidle, _⟩
  · cases hfetch.symm.trans hreset
  · obtain rfl : v = w := Instr.transition.inj (Option.some.inj (hfetch.symm.trans hw))
    obtain rfl : code = c := Option.some.inj (hS.symm.trans hc)
    rw [← hnext, htS]
  · rcases hidle with hissue | hhold
    · cases hfetch.symm.trans hissue
    · cases hfetch.symm.trans hhold

/-- Settles O52: the TRANSITION follows a table entry of a state in `Reach`, which P2 speaks of. -/
theorem noGreenToOppositeGreen : Obligations.NoGreenToOppositeGreen := by
  unfold Obligations.NoGreenToOppositeGreen
  intro s t d v code n hP2 hreach hS hfetch h htS
  exact Build.p2At_next (hP2 code (hreach code hS) v) (step_next_of_transition hS hfetch h htS)

/-- Settles O54: the reset edge writes 0 to `S`, and `light_out` shows row 0's code. -/
theorem resetShowsSouthGreen : Obligations.ResetShowsSouthGreen := by
  unfold Obligations.ResetShowsSouthGreen
  intro s d hsouth hrst
  obtain ⟨light, hlight, hgreen⟩ : ∃ x, s.hw.light 0 = some x ∧ d.greenNS x = true := (Option.any_eq_true ..).1 hsouth
  exact ⟨step_of_rst hrst, light, State.lightOut_of_light (s := (s.writeLoop 0 .issue).tick) rfl hlight, hgreen⟩

end Machine

end Sys2Proof
end

section
/-!
The roles of the twelve indices (R87, R89).
-/

namespace Sys2Proof

section Roles

variable {p : Params}

/-- From 5 on the parameters say the role of an index (R89). -/
theorem Params.role_of_five_le {s : Nat} (h : 5 ≤ s) :
    p.role s =
      if s = p.ackW then some .westAck
      else if s = p.cross then some .crossing
      else ((List.finRange 5).find? fun k => decide (p.flash[k.val] = s)).map .flashing := by
  obtain ⟨s, rfl⟩ := Nat.exists_eq_add_of_le' h
  rfl

/-- The parameter's flashing states as the entries of its vector. -/
theorem Params.flash_toList (p : Params) : p.flash.toList = (List.finRange 5).map fun k => p.flash[k.val] := by
  rw [← List.ofFn_eq_map, ← Vector.toList_ofFn]
  congr 1
  ext i hi
  simp

/-- `ACK_W` takes the west acknowledge role (R89). -/
theorem Params.role_ackW (h : 5 ≤ p.ackW) : p.role p.ackW = some .westAck := by
  rw [Params.role_of_five_le h, if_pos rfl]

/-- `CROSS`, another index than `ACK_W`, takes the crossing role (R89). -/
theorem Params.role_cross (h : 5 ≤ p.cross) (hack : p.cross ≠ p.ackW) : p.role p.cross = some .crossing := by
  rw [Params.role_of_five_le h, if_neg hack, if_pos rfl]

/-- The `k`-th flashing state, another index than the other six, takes the `k`-th flashing role (R89). -/
theorem Params.role_flash {k : Fin 5} (h : 5 ≤ p.flash[k.val]) (hack : p.flash[k.val] ≠ p.ackW)
    (hcross : p.flash[k.val] ≠ p.cross) (hinj : ∀ j : Fin 5, p.flash[j.val] = p.flash[k.val] → j = k) :
    p.role p.flash[k.val] = some (.flashing k) := by
  have hpred : (fun j : Fin 5 => decide (p.flash[j.val] = p.flash[k.val])) = fun j => decide (j = k) := by
    funext j
    exact decide_eq_decide.2 ⟨hinj j, fun hj => hj ▸ rfl⟩
  have hfind : ∀ k : Fin 5, (List.finRange 5).find? (fun j => decide (j = k)) = some k := by decide
  rw [Params.role_of_five_le h, if_neg hack, if_neg hcross, hpred, hfind k, Option.map_some]

/-- The seven role indices take the seven roles the parameters give, in order, when they are distinct and past row 4 (R89). -/
theorem Params.map_role_roleIndices (hnodup : p.roleIndices.Nodup) (hge : ∀ r ∈ p.roleIndices, 5 ≤ r) :
    p.roleIndices.map p.role =
      some .westAck :: some .crossing :: (List.finRange 5).map fun k => some (.flashing k) := by
  rw [Params.roleIndices, Params.flash_toList] at hnodup hge
  simp only [List.nodup_cons, List.mem_cons, not_or] at hnodup
  simp only [List.forall_mem_cons, List.forall_mem_map] at hge
  obtain ⟨⟨hackCross, hackFlash⟩, hcrossFlash, hflash⟩ := hnodup
  obtain ⟨hack, hcross, hflashGe⟩ := hge
  have hmem (k : Fin 5) : p.flash[k.val] ∈ (List.finRange 5).map fun k => p.flash[k.val] :=
    List.mem_map_of_mem (List.mem_finRange k)
  rw [Params.roleIndices, Params.flash_toList, List.map_cons, List.map_cons, List.map_map, Params.role_ackW hack,
    Params.role_cross hcross (Ne.symm hackCross)]
  congr 2
  refine List.map_congr_left fun k hk => Params.role_flash (hflashGe k hk) ?_ ?_ fun j hj => ?_
  · exact fun e => hackFlash (e ▸ hmem k)
  · exact fun e => hcrossFlash (e ▸ hmem k)
  · exact List.inj_on_of_nodup_map hflash (List.mem_finRange j) hk hj

end Roles

/-- Settles O56: rows 0 to 4 have their roles by themselves, and the indices 5 to 11 are the role indices in another order. -/
theorem rolesCoverTheTable : Obligations.RolesCoverTheTable := by
  unfold Obligations.RolesCoverTheTable
  intro p hwf
  obtain ⟨_, _, _, hperm⟩ := p.wellFormed_iff.1 hwf
  obtain ⟨hnodup, hrange⟩ := p.roleIndices_perm_iff.1 hperm
  calc
    (List.range 12).map p.role = [0, 1, 2, 3, 4].map p.role ++ [5, 6, 7, 8, 9, 10, 11].map p.role := rfl
    List.Perm _ ([0, 1, 2, 3, 4].map p.role ++ p.roleIndices.map p.role) := (hperm.symm.map p.role).append_left _
    _ = allRoles.map some := by
      rw [Params.map_role_roleIndices hnodup fun r hr => (hrange r hr).1]
      rfl

end Sys2Proof
end

section
/-!
The four operations and the step: what the guards of R114 answer on unwritten and on illegal registers, the step branch by branch,
and the inputs a step reads (R110 to R114, R118, R141).
-/

namespace Sys2Proof.Machine

section Guards

variable {s : State} {code : StateCode} {ph : Phase}

/-- The guards answer MF1 while a register is unwritten (R114). -/
theorem State.withLoop_unwritten (h : s.S = none ∨ s.PH = none)
    (k : StateCode → Phase → Host.Outcome State Fault Refusal) : s.withLoop k = .fault (.mf1Unreset s.cycle) := by
  rcases h with hS | hPH
  · simp [State.withLoop, hS]
  · cases hS : s.S <;> simp [State.withLoop, hS, hPH]

/-- The guards answer MF2 on written registers with a code 12..15 (R114). -/
theorem State.withLoop_illegal (hS : s.S = some code) (hPH : s.PH = some ph) (hillegal : 12 ≤ code.toNat)
    (k : StateCode → Phase → Host.Outcome State Fault Refusal) : s.withLoop k = .fault (.mf2IllegalState s.cycle code) := by
  simp [State.withLoop, hS, hPH, Nat.not_lt.2 hillegal]

/-- The registers are unwritten, illegal or legal: the three answers of the guards (R114). -/
theorem State.registers_cases (s : State) :
    (s.S = none ∨ s.PH = none) ∨ (∃ code ph, s.S = some code ∧ s.PH = some ph ∧ 12 ≤ code.toNat) ∨
      ∃ code ph, s.S = some code ∧ s.PH = some ph ∧ code.toNat < 12 := by
  rcases s.withLoop_cases fun _ _ => .next s with ⟨h, _⟩ | ⟨code, ph, hS, hPH, h, _⟩ | ⟨code, ph, hS, hPH, h, _⟩
  · exact .inl h
  · exact .inr (.inl ⟨code, ph, hS, hPH, h⟩)
  · exact .inr (.inr ⟨code, ph, hS, hPH, h⟩)

/-- Every operation but RESET starts with the guards of R114. -/
theorem exists_exec_eq_withLoop {i : Instr} (hi : i ≠ .reset) (s : State) : ∃ k, exec i s = s.withLoop k := by
  cases i with
  | reset => exact absurd rfl hi
  | issue => exact ⟨_, rfl⟩
  | waitHold => exact ⟨_, rfl⟩
  | transition v => exact ⟨_, rfl⟩

/-- Without a reset a cycle with `PH` written goes through the guards of R114. -/
theorem exists_step_eq_withLoop (hrst : stimRst s.stim = false) (hPH : s.PH = some ph) :
    ∃ k, step s = endCycle (s.withLoop k) := by
  obtain ⟨i, hfetch, hi⟩ : ∃ i, s.fetch = some i ∧ i ≠ .reset := by
    cases ph <;> cases hdone : stimDone s.stim <;> simp [State.fetch_eq, hrst, hPH, hdone]
  obtain ⟨k, hexec⟩ := exists_exec_eq_withLoop hi s
  exact ⟨k, (step_of_fetch hfetch).trans (congrArg endCycle hexec)⟩

/-- A cycle without a reset on unwritten registers is MF1 (R36, R114). -/
theorem step_of_unwritten (hrst : stimRst s.stim = false) (h : s.S = none ∨ s.PH = none) :
    step s = .fault (.mf1Unreset s.cycle) := by
  cases hPH : s.PH with
  | none => exact step_of_PH_unwritten hrst hPH
  | some ph =>
    obtain ⟨k, hstep⟩ := exists_step_eq_withLoop hrst hPH
    rw [hstep, State.withLoop_unwritten h, endCycle_fault]

/-- A cycle without a reset on a code 12..15 is MF2 (R21, R114). -/
theorem step_of_illegal (hrst : stimRst s.stim = false) (hS : s.S = some code) (hPH : s.PH = some ph)
    (hillegal : 12 ≤ code.toNat) : step s = .fault (.mf2IllegalState s.cycle code) := by
  obtain ⟨k, hstep⟩ := exists_step_eq_withLoop hrst hPH
  rw [hstep, State.withLoop_illegal hS hPH hillegal, endCycle_fault]

/-- On written registers with a legal code every step completes (R114). -/
theorem exists_step_of_legal (hS : s.S = some code) (hPH : s.PH = some ph) (hlegal : code.toNat < 12) :
    ∃ t, step s = .next t := by
  cases hrst : stimRst s.stim with
  | true => exact ⟨_, step_of_rst hrst⟩
  | false =>
    cases ph with
    | issue => exact ⟨_, step_of_issue hS hlegal hPH hrst⟩
    | wait =>
      cases hdone : stimDone s.stim with
      | false => exact ⟨_, step_of_waitHold hS hlegal hPH hrst hdone⟩
      | true =>
        obtain ⟨n, hn⟩ := s.hw.exists_next hlegal (stimVec s.stim)
        exact ⟨_, step_of_transition hS hPH hrst hdone hn⟩

end Guards

section Operations

variable {s : State} {code : StateCode} {ph : Phase}

/-- A reset cycle makes no request, whatever `PH` holds (R26, R110). -/
theorem State.waitStart_of_rst (hrst : stimRst s.stim = true) : s.waitStart = false := by
  cases hPH : s.PH <;> simp [State.waitStart, hPH, hrst]

/-- Outside the WAIT phase no request stands (R32). -/
theorem State.insideRequest_of_issue (hPH : s.PH = some .issue) : s.insideRequest = false := by
  simp [State.insideRequest, hPH]

/-- Outside the WAIT phase no ticks are outstanding (R32). -/
theorem State.outstandingRequest_of_issue (hPH : s.PH = some .issue) : s.outstandingRequest = none := by
  cases hS : s.S <;> simp [State.outstandingRequest, hS, hPH]

/-- ISSUE on legal, written registers writes `PH` (R111). -/
theorem exec_issue (hS : s.S = some code) (hPH : s.PH = some ph) (hlegal : code.toNat < 12) :
    exec .issue s = .next (s.writePhase .wait) :=
  State.withLoop_legal hS hPH hlegal _

/-- WAIT_HOLD on legal, written registers writes nothing (R112). -/
theorem exec_waitHold (hS : s.S = some code) (hPH : s.PH = some ph) (hlegal : code.toNat < 12) :
    exec .waitHold s = .next s :=
  State.withLoop_legal hS hPH hlegal _

/-- TRANSITION on written registers writes `S` with the ROM's entry and `PH` with ISSUE (R113). -/
theorem exec_transition {n : StateCode} {v : InVec} (hS : s.S = some code) (hPH : s.PH = some ph)
    (hn : s.hw.next code v = some n) : exec (.transition v) s = .next (s.writeLoop n .issue) :=
  (State.withLoop_legal hS hPH (Build.lt_of_next hn) _).trans (State.withNext_some hn _)

/-- The conditions under which a cycle performs a TRANSITION (R67, R113). -/
theorem State.fetch_eq_transition_iff {v : InVec} :
    s.fetch = some (.transition v) ↔
      stimRst s.stim = false ∧ s.PH = some .wait ∧ stimDone s.stim = true ∧ v = stimVec s.stim := by
  rw [State.fetch_eq]
  cases stimRst s.stim <;> cases stimDone s.stim <;> rcases s.PH with _ | _ | _ <;> simp [eq_comm]

end Operations

/-- Settles O14: RESET is its register write, the reset cycle's step is that write and the edge, and in the cycle itself the row of
the old `S` is still on the ports. -/
theorem resetIsColdStart : Obligations.ResetIsColdStart := by
  unfold Obligations.ResetIsColdStart
  refine ⟨fun s => rfl, fun s hrst => ⟨by simp [State.fetch_eq, hrst], ⟨_, step_of_rst hrst, rfl, rfl, rfl, ?_, ?_⟩,
    State.waitStart_of_rst hrst, fun code hS => ⟨?_, ?_⟩⟩⟩
  · exact State.insideRequest_of_issue rfl
  · exact State.outstandingRequest_of_issue rfl
  · exact fun x hx => State.lightOut_of_light hS hx
  · exact fun x hx => State.pedOut_of_ped hS hx

/-- Settles O15: the write of ISSUE, the request in its cycle and none after it, and the answers of the guards. -/
theorem issueRequestsTheWait : Obligations.IssueRequestsTheWait := by
  unfold Obligations.IssueRequestsTheWait
  refine ⟨fun s code ph hS hPH hlegal => ?writes, fun s code hS hPH hlegal hrst => ?cycle, fun s hS => ?unwritten,
    fun s code ph hS hPH hillegal => ?illegal⟩
  case writes => exact exec_issue hS hPH hlegal
  case cycle =>
    obtain ⟨_, _, ticks, _, _, hticks⟩ := s.hw.exists_fields hlegal
    refine ⟨by simp [State.fetch_eq, hrst, hPH], by simp [State.waitStart_of_PH hPH, hrst],
      ⟨ticks, hticks, State.waitTicks_of_dwell hS hticks⟩, _, step_of_issue hS hlegal hPH hrst, rfl, hS, rfl, ?_⟩
    rw [State.waitStart_of_PH (ph := .wait) rfl]
    rfl
  case unwritten => exact State.withLoop_unwritten (.inl hS) _
  case illegal => exact State.withLoop_illegal hS hPH hillegal _

/-- Settles O16: WAIT_HOLD writes nothing, in one cycle and in a run of any number of them. -/
theorem waitHoldWritesNothing : Obligations.WaitHoldWritesNothing := by
  unfold Obligations.WaitHoldWritesNothing
  refine ⟨fun s code ph hS hPH hlegal => ?writes, fun s code hS hPH hlegal hrst hdone => ?cycle,
    fun s code words hS hPH hlegal hwords => ?run, fun s h => ?unwritten⟩
  case writes => exact exec_waitHold hS hPH hlegal
  case cycle =>
    exact ⟨by simp [State.fetch_eq, hrst, hPH, hdone], _, step_of_waitHold hS hlegal hPH hrst hdone, rfl, hS, hPH⟩
  case run => exact runWords_holds hS hlegal hPH hwords
  case unwritten => exact State.withLoop_unwritten h _

/-- Settles O17: TRANSITION writes the ROM's entry, whose row the ports show once it stands in `S`, and the guards give its
faults. -/
theorem transitionMovesToTheNextState : Obligations.TransitionMovesToTheNextState := by
  unfold Obligations.TransitionMovesToTheNextState
  refine ⟨fun s code ph v hS hPH hlegal => ?writes, fun s code hS hPH hlegal hrst hdone => ?cycle, fun s v h => ?unwritten,
    fun s code ph v hS hPH hillegal => ?illegal⟩
  case writes =>
    obtain ⟨n, hn⟩ := s.hw.exists_next hlegal v
    exact ⟨n, hn, exec_transition hS hPH hn⟩
  case cycle =>
    obtain ⟨n, hn⟩ := s.hw.exists_next hlegal (stimVec s.stim)
    refine ⟨State.fetch_eq_transition_iff.2 ⟨hrst, hPH, hdone, rfl⟩, n, _, hn, step_of_transition hS hPH hrst hdone hn,
      rfl, rfl, rfl, fun hrom => s.hw.next_lt hrom hn, fun x hx => ?_, fun x hx => ?_, fun x hx => ?_⟩
    · exact State.lightOut_of_light rfl hx
    · exact State.pedOut_of_ped rfl hx
    · exact State.waitTicks_of_dwell rfl hx
  case unwritten => exact State.withLoop_unwritten h _
  case illegal => exact State.withLoop_illegal hS hPH hillegal _

/-- Settles O20: one lemma per branch of R114, in its order. -/
theorem stepFollowsThePriority : Obligations.StepFollowsThePriority := by
  unfold Obligations.StepFollowsThePriority
  refine ⟨fun s => step_of_rst, fun s => step_of_unwritten, fun s code ph => step_of_illegal,
    fun s code hrst hS hlegal hPH => step_of_issue hS hlegal hPH hrst,
    fun s code hrst hS hlegal hPH hdone => step_of_waitHold hS hlegal hPH hrst hdone,
    fun s code hrst hS hlegal hPH hdone => ?transition⟩
  case transition =>
    obtain ⟨n, hn⟩ := s.hw.exists_next hlegal (stimVec s.stim)
    exact ⟨n, hn, step_of_transition hS hPH hrst hdone hn⟩

/-- Settles O21: of the branches of R114 the guards' two faults are the only ones, and each is taken on its registers. -/
theorem stepFaultsExactlyWhen : Obligations.StepFaultsExactlyWhen := by
  unfold Obligations.StepFaultsExactlyWhen
  intro s f
  constructor
  · intro h
    have hrst : stimRst s.stim = false := by
      by_contra hrst
      cases (step_of_rst (by simpa using hrst)).symm.trans h
    refine ⟨hrst, ?_⟩
    rcases s.registers_cases with hunwritten | ⟨code, ph, hS, hPH, hillegal⟩ | ⟨code, ph, hS, hPH, hlegal⟩
    · cases (step_of_unwritten hrst hunwritten).symm.trans h
      exact .inl ⟨hunwritten, rfl⟩
    · cases (step_of_illegal hrst hS hPH hillegal).symm.trans h
      exact .inr ⟨code, ph, hS, hPH, hillegal, rfl⟩
    · obtain ⟨t, hstep⟩ := exists_step_of_legal hS hPH hlegal
      cases hstep.symm.trans h
  · rintro ⟨hrst, ⟨hunwritten, rfl⟩ | ⟨code, ph, hS, hPH, hillegal, rfl⟩⟩
    · exact step_of_unwritten hrst hunwritten
    · exact step_of_illegal hrst hS hPH hillegal

/-- Settles O19: the step passes the edge over what the fetched operation answers, and without one it is MF1. -/
theorem stepRunsTheFetchedOperation : Obligations.StepRunsTheFetchedOperation := by
  unfold Obligations.StepRunsTheFetchedOperation
  refine ⟨fun s i hfetch => ⟨step_of_fetch hfetch, fun t h => ?_, fun f h => ?_⟩, fun s hfetch => ?_⟩
  · rw [step_of_fetch hfetch, h]
    rfl
  · rw [step_of_fetch hfetch, h, endCycle_fault]
  · simp only [step, hfetch]

section Inputs

variable (s : State) (σ τ : StimWord) (rest : List StimWord)

/-- The edge after the guards is the edge after what they go on with; their faults stand (R13, R114). -/
theorem endCycle_withLoop (k : StateCode → Phase → Host.Outcome State Fault Refusal) :
    endCycle (s.withLoop k) = s.withLoop fun code ph => endCycle (k code ph) := by
  unfold State.withLoop
  split
  · split <;> rfl
  · rfl

/-- The edge after a lookup is the edge after what it goes on with; its fault stands (R13, R83). -/
theorem endCycle_withNext (code : StateCode) (v : InVec) (k : StateCode → Host.Outcome State Fault Refusal) :
    endCycle (s.withNext code v k) = s.withNext code v fun n => endCycle (k n) := by
  unfold State.withNext
  split <;> rfl

/-- An operation reads no input port: given its operand, the current cycle's stimulus word leaves no trace past the edge. -/
theorem endCycle_exec_drive (i : Instr) :
    endCycle (exec i (s.drive (σ :: rest))) = endCycle (exec i (s.drive (τ :: rest))) := by
  cases i with
  | reset => rfl
  | issue =>
    simp only [exec, execIssue, endCycle_withLoop]
    rfl
  | waitHold =>
    simp only [exec, execWaitHold, endCycle_withLoop]
    rfl
  | transition v =>
    simp only [exec, execTransition, endCycle_withLoop, endCycle_withNext]
    rfl

end Inputs

/-- The vector selects the operand of a TRANSITION and nothing else (R66). -/
theorem State.fetch_drive_vec {s : State} {rst done : Bool} {v : InVec} {rest : List StimWord}
    (h : ∀ u, (s.drive (stimWord rst done v :: rest)).fetch ≠ some (.transition u)) (w : InVec) :
    (s.drive (stimWord rst done w :: rest)).fetch = (s.drive (stimWord rst done v :: rest)).fetch := by
  simp only [State.fetch_eq, State.drive_stim_cons, State.drive_PH, stimRst_stimWord, stimDone_stimWord] at h ⊢
  cases rst with
  | true => rfl
  | false =>
    rcases hPH : s.PH with _ | _ | _
    case none => rfl
    case some.issue => rfl
    case some.wait =>
      cases done with
      | false => rfl
      | true => simp [hPH] at h

/-- Settles O40: the two cycles fetch one operation, and the operation reads no input port. -/
theorem inputsIgnoredOutsideTransition : Obligations.InputsIgnoredOutsideTransition := by
  unfold Obligations.InputsIgnoredOutsideTransition
  intro s rst done v w rest hnot
  have hsame := State.fetch_drive_vec hnot w
  cases hfetch : (s.drive (stimWord rst done v :: rest)).fetch with
  | none =>
    obtain ⟨-, hunwritten⟩ := stepRunsTheFetchedOperation
    exact (hunwritten _ hfetch).trans (hunwritten _ (hsame.trans hfetch)).symm
  | some i =>
    rw [step_of_fetch hfetch, step_of_fetch (hsame.trans hfetch)]
    exact endCycle_exec_drive ..

end Sys2Proof.Machine
end

section
/-!
The loop: a run cut in two, the cycles of one iteration, the walk of the table, and the endless runs of a running block: progress
under a timer that answers, and the dwell under a timer that is honest (R113 to R120, R124, R147).
-/

namespace Sys2Proof.Machine

section Iteration

variable {s t : State} {code : StateCode}

/-- A run under a list of words that goes on stands, after the first part, where the run of that part ends, with the rest to be
driven. -/
theorem runFor_drive_append {words : List StimWord} (h : runWords words s = .next t) (rest : List StimWord) :
    runFor words.length (s.drive (words ++ rest)) = .next (t.drive rest) := by
  induction words generalizing s with
  | nil => cases h; rfl
  | cons σ words ih =>
    obtain ⟨u, hcycle, hrun⟩ := runWords_cons_eq_next h
    exact (runFor_succ (step_redrive hcycle (words ++ rest)) words.length).trans (ih hrun)

/-- The ISSUE cycle and the cycles without an answer after it leave the block in the WAIT phase of the same state (R111, R112). -/
theorem runWords_issue_holds {first : StimWord} {holds : List StimWord} (hS : s.S = some code) (hPH : s.PH = some .issue)
    (hlegal : code.toNat < 12) (hfirst : stimRst first = false)
    (hholds : ∀ σ ∈ holds, stimRst σ = false ∧ stimDone σ = false) :
    ∃ t, runWords (first :: holds) s = .next t ∧ t.hw = s.hw ∧ t.S = some code ∧ t.PH = some .wait := by
  have hissue : cycleWith first s = .next ((s.drive [first]).writePhase .wait).tick :=
    step_of_issue (s := s.drive [first]) hS hlegal hPH hfirst
  have hwait := runWords_holds (s := ((s.drive [first]).writePhase .wait).tick) hS hlegal rfl hholds
  exact ⟨_, (runWords_cons_of_cycleWith hissue holds).trans hwait, rfl, hS, rfl⟩

/-- Cycle `j` of an iteration: the registers it is performed with, and its operation (R115). -/
theorem iteration_cycle {first last : StimWord} {holds : List StimWord} (hS : s.S = some code) (hPH : s.PH = some .issue)
    (hlegal : code.toNat < 12) (hfirst : stimRst first = false)
    (hholds : ∀ σ ∈ holds, stimRst σ = false ∧ stimDone σ = false)
    (hlast : stimRst last = false) (hdone : stimDone last = true) {j : Nat} (hj : j < holds.length + 2) :
    ∃ t, runFor j (s.drive (first :: (holds ++ [last]))) = .next t ∧ t.hw = s.hw ∧ t.S = some code ∧
      t.PH = some (if j = 0 then .issue else .wait) ∧ stimRst t.stim = false ∧
      t.fetch = some (if j = 0 then .issue else if j = holds.length + 1 then .transition (stimVec last) else .waitHold) := by
  cases j with
  | zero => exact ⟨s.drive (first :: (holds ++ [last])), rfl, rfl, hS, hPH, hfirst, by simp [State.fetch_eq, hfirst, hPH]⟩
  | succ i =>
    have hi : i ≤ holds.length := by omega
    obtain ⟨t, hrun, hhw, htS, htPH⟩ :=
      runWords_issue_holds hS hPH hlegal hfirst fun σ hσ => hholds σ (List.mem_of_mem_take (i := i) hσ)
    have hcycle := runFor_drive_append hrun (holds.drop i ++ [last])
    rw [List.cons_append, ← List.append_assoc, List.take_append_drop, List.length_cons, List.length_take_of_le hi] at hcycle
    refine ⟨_, hcycle, hhw, htS, htPH, ?_⟩
    rcases hi.lt_or_eq with hlt | rfl
    case inl =>
      obtain ⟨hrst, hnot⟩ := hholds _ (List.getElem_mem hlt)
      rw [List.drop_eq_getElem_cons hlt, List.cons_append]
      exact ⟨hrst, by simp [State.fetch_eq, hrst, hnot, htPH, hlt.ne]⟩
    case inr =>
      rw [List.drop_length, List.nil_append]
      exact ⟨hlast, by simp [State.fetch_eq, hlast, hdone, htPH]⟩

end Iteration

/-- Settles O41: the TRANSITION writes both registers, and the ports before and after the edge show the row of the same code. -/
theorem selfLoopStartsANewIteration : Obligations.SelfLoopStartsANewIteration := by
  unfold Obligations.SelfLoopStartsANewIteration
  intro s code hS hPH hlegal hrst hdone hn
  obtain ⟨light, ped, ticks, hlight, hped, hticks⟩ := s.hw.exists_fields hlegal
  refine ⟨step_of_transition hS hPH hrst hdone hn, light, ped, ticks, hlight, hped, hticks, ?before, ?after⟩
  case before => simp [State.ports_of_fields hS hlight hped hticks, State.waitStart_of_PH hPH]
  case after =>
    rw [State.ports_of_fields (s := (s.writeLoop code .issue).tick) rfl hlight hped hticks,
      State.waitStart_of_PH (ph := .issue) rfl]
    simp

/-- Settles O42: the request of the ISSUE cycle is for `DWELL(S)`, which is 0, and the second cycle is a hold or the answer. -/
theorem zeroDwellIsRequested : Obligations.ZeroDwellIsRequested := by
  unfold Obligations.ZeroDwellIsRequested
  intro s code σ τ hS hPH hlegal hdwell hσ hτ
  refine ⟨by simp [State.waitStart_of_PH (s := s.drive [σ, τ]) hPH, hσ],
    State.waitTicks_of_dwell (s := s.drive [σ, τ]) hS hdwell,
    fun hnot => ?waits, fun hdone => ?moves⟩
  case waits =>
    obtain ⟨t, hrun, -, htS, htPH⟩ := runWords_issue_holds hS hPH hlegal hσ (List.forall_mem_singleton.2 ⟨hτ, hnot⟩)
    exact ⟨t, hrun, htS, htPH⟩
  case moves =>
    obtain ⟨n, hn⟩ := s.hw.exists_next hlegal (stimVec τ)
    exact ⟨_, runWords_iteration hS hPH hσ (List.forall_mem_nil _) hτ hdone hn, hn.symm, rfl⟩

/-- Settles O43: the run of an iteration, and the ports of each of its cycles by the registers the cycle is performed with. -/
theorem iterationOfAState : Obligations.IterationOfAState := by
  unfold Obligations.IterationOfAState
  intro s code first last holds hS hPH hlegal hfirst hholds hlast hdone
  constructor
  · obtain ⟨n, hn⟩ := s.hw.exists_next hlegal (stimVec last)
    exact ⟨n, hn, runWords_iteration hS hPH hfirst hholds hlast hdone hn⟩
  · intro j hj
    obtain ⟨t, hrun, hhw, htS, htPH, hrst, hfetch⟩ := iteration_cycle hS hPH hlegal hfirst hholds hlast hdone hj
    obtain ⟨light, ped, ticks, hlight, hped, hticks, hports⟩ := portDrives t code _ htS htPH hlegal
    refine ⟨t, light, ped, ticks, hrun, hhw, hfetch, hlight, hped, hticks, ?_⟩
    rw [hports]
    by_cases hzero : j = 0 <;> simp [hzero, hrst]

/-- Settles O44, by induction on the iterations: the first makes the walk's first move, and the walk goes on from there. -/
theorem iterationsFollowTheTable : Obligations.IterationsFollowTheTable := by
  unfold Obligations.IterationsFollowTheTable
  intro s code iters hrom hS hlegal hPH
  induction iters generalizing s code with
  | nil => exact ⟨code, s.drive [], rfl, rfl, rfl, hS, hPH⟩
  | cons i iters ih =>
    obtain ⟨c, hc⟩ := s.hw.exists_next hlegal i.1
    obtain ⟨u, hiter, huhw, huS, huPH⟩ := runWords_iterWords hS hPH hc i.2.1 i.2.2
    obtain ⟨n, t, hpath, hrun, hhw, htS, htPH⟩ := ih u c (huhw ▸ hrom) huS (s.hw.next_lt hrom hc) huPH
    refine ⟨n, t, ?walk, (runWords_append hiter _).trans hrun, hhw.trans huhw, htS, htPH⟩
    case walk =>
      rw [List.length_cons, Build.path_succ, List.getD_cons_zero, hc, Option.bind_some, ← huhw]
      exact hpath

section Endless

variable {σ : Nat → StimWord} {s t u : State} {n : Nat}

/-- A running block holds written registers and a legal code. -/
theorem State.Running.exists_registers (h : s.Running) : ∃ code ph, s.S = some code ∧ s.PH = some ph ∧ code.toNat < 12 := by
  obtain ⟨code, hS, hlegal⟩ := h.exists_code
  obtain ⟨⟨_, htogether, _⟩, hwritten⟩ := h
  obtain ⟨ph, hPH⟩ := Option.isSome_iff_exists.1 (htogether.symm.trans hwritten)
  exact ⟨code, ph, hS, hPH, hlegal⟩

/-- What the collaborators are to drive is no part of the invariant. -/
theorem State.Running.drive (h : s.Running) (words : List StimWord) : (s.drive words).Running := h

/-- A cycle of a running block leaves a running block, whatever the collaborators drive (R114). -/
theorem State.Running.of_cycleWith {τ : StimWord} (h : s.Running) (hcycle : cycleWith τ s = .next t) : t.Running :=
  (stepKeepsTheInvariant _ t (h.drive [τ]).1 hcycle).2

/-- A running block runs on under every endless stimulus sequence (R125, R141). -/
theorem State.Running.exists_runStream (h : s.Running) (σ : Nat → StimWord) (n : Nat) :
    ∃ t, runStream σ s n = .next t ∧ t.Running := by
  induction n with
  | zero => exact ⟨s, rfl, h⟩
  | succ n ih =>
    obtain ⟨t, hrun, htrun⟩ := ih
    obtain ⟨code, ph, hS, hPH, hlegal⟩ := htrun.exists_registers
    obtain ⟨u, hstep⟩ := exists_step_of_legal (s := t.drive [σ n]) hS hPH hlegal
    exact ⟨u, (runStream_succ hrun).trans hstep, htrun.of_cycleWith hstep⟩

/-- A running block is running in every cycle of its run. -/
theorem State.Running.of_inCycle (h : s.Running) (ht : InCycle σ s n t) : t.Running := by
  obtain ⟨u, hrun, rfl⟩ := ht
  have hu : u.Running := runStream_keeps (P := State.Running) (fun _ _ _ hs hcycle => hs.of_cycleWith hcycle) h hrun
  exact hu.drive _

/-- A cycle is performed in one state. -/
theorem InCycle.unique (ht : InCycle σ s n t) (hu : InCycle σ s n u) : t = u := by
  obtain ⟨t', htrun, rfl⟩ := ht
  obtain ⟨u', hurun, rfl⟩ := hu
  cases htrun.symm.trans hurun
  rfl

/-- In its cycle a state is driven with the word of that cycle. -/
theorem InCycle.stim_eq (ht : InCycle σ s n t) : t.stim = σ n := by
  obtain ⟨t', _, rfl⟩ := ht
  rfl

/-- A later cycle is performed in what the step of the cycle before it answers. -/
theorem InCycle.exists_before (ht : InCycle σ s (n + 1) t) :
    ∃ u t', InCycle σ s n u ∧ step u = .next t' ∧ t'.S = t.S ∧ t'.PH = t.PH := by
  obtain ⟨t', hrun, rfl⟩ := ht
  cases e : runStream σ s n with
  | next u => exact ⟨u.drive [σ n], t', ⟨u, e, rfl⟩, (runStream_succ e).symm.trans hrun, rfl, rfl⟩
  | fault f => simp [runStream, e] at hrun
  | refused r => simp [runStream, e] at hrun

end Endless

section Progress

variable {σ : Nat → StimWord} {s t : State} {n : Nat}

/-- Cycle `n` of the run of `σ` from `s` is a TRANSITION: it answers a wait in progress and ends in an ISSUE phase (R113). -/
def TransitionAt (σ : Nat → StimWord) (s : State) (n : Nat) : Prop :=
  ∃ t u, runStream σ s n = .next t ∧ t.PH = some .wait ∧ stimDone (σ n) = true ∧ runStream σ s (n + 1) = .next u ∧
    u.PH = some .issue

/-- Without a reset, the cycle after one in an ISSUE phase is in the WAIT phase, so a WAIT phase is never far. -/
theorem State.Running.exists_wait (hrun : s.Running) (hrst : ∀ n, stimRst (σ n) = false) (n : Nat) :
    ∃ m t, n ≤ m ∧ runStream σ s m = .next t ∧ t.PH = some .wait := by
  obtain ⟨t, ht, htrun⟩ := hrun.exists_runStream σ n
  obtain ⟨code, ph, hS, hPH, hlegal⟩ := htrun.exists_registers
  cases ph with
  | issue => exact ⟨n + 1, _, n.le_succ, (runStream_succ ht).trans (step_of_issue hS hlegal hPH (hrst n)), rfl⟩
  | wait => exact ⟨n, t, le_rfl, ht, hPH⟩

/-- Without a reset, the cycle that answers a wait in progress is a TRANSITION (R113). -/
theorem State.Running.transitionAt (hrun : s.Running) (hrst : stimRst (σ n) = false) (ht : runStream σ s n = .next t)
    (hPH : t.PH = some .wait) (hdone : stimDone (σ n) = true) : TransitionAt σ s n := by
  obtain ⟨code, _, hS, _, hlegal⟩ := (hrun.of_inCycle ⟨t, ht, rfl⟩).exists_registers
  obtain ⟨c, hc⟩ := t.hw.exists_next hlegal (stimVec (σ n))
  have hmove := step_of_transition (s := t.drive [σ n]) hS hPH hrst hdone hc
  exact ⟨t, _, ht, hPH, hdone, (runStream_succ ht).trans hmove, rfl⟩

/-- Without a reset, a wait in progress that is answered `k` cycles later is held up to its first answer, which is a
TRANSITION. -/
theorem State.Running.exists_transitionAt (hrun : s.Running) (hrst : ∀ n, stimRst (σ n) = false) {k : Nat}
    (ht : runStream σ s n = .next t) (hPH : t.PH = some .wait) (hanswer : stimDone (σ (n + k)) = true) :
    ∃ m, n ≤ m ∧ TransitionAt σ s m := by
  induction k generalizing n t with
  | zero => exact ⟨n, le_rfl, hrun.transitionAt (hrst n) ht hPH hanswer⟩
  | succ k ih =>
    cases hdone : stimDone (σ n) with
    | true => exact ⟨n, le_rfl, hrun.transitionAt (hrst n) ht hPH hdone⟩
    | false =>
      obtain ⟨code, _, hS, _, hlegal⟩ := (hrun.of_inCycle ⟨t, ht, rfl⟩).exists_registers
      have hhold := step_of_waitHold (s := t.drive [σ n]) hS hlegal hPH (hrst n) hdone
      obtain ⟨m, hm, hmove⟩ := ih ((runStream_succ ht).trans hhold) hPH (by rwa [Nat.add_right_comm])
      exact ⟨m, n.le_succ.trans hm, hmove⟩

end Progress

/-- Settles O46: from every cycle on there is a wait in progress, the timer answers it, and the first answer is a TRANSITION. -/
theorem timerMakesProgress : Obligations.TimerMakesProgress := by
  unfold Obligations.TimerMakesProgress
  intro s σ hrun hrst htimer n
  obtain ⟨w, t, hw, ht, hPH⟩ := hrun.exists_wait hrst n
  obtain ⟨a, ha, hanswer⟩ := htimer w t ht hPH fun m _ => hrst m
  obtain ⟨k, rfl⟩ := Nat.exists_eq_add_of_le ha
  obtain ⟨m, hm, u, v, hmove⟩ := hrun.exists_transitionAt hrst ht hPH hanswer
  exact ⟨m, u, v, hw.trans hm, hmove⟩

section Visit

variable {σ : Nat → StimWord} {s t : State} {n r : Nat}

/-- A step into the WAIT phase keeps `S`, and its cycle was in the WAIT phase already or made the request (R111, R112). -/
theorem step_into_wait (h : step s = .next t) (hPH : t.PH = some .wait) :
    t.S = s.S ∧ (s.PH = some .wait ∨ s.waitStart = true) := by
  rcases step_cases h with ⟨_, _, rfl⟩ | ⟨_, hrst, _, _, hissue, _, rfl⟩ | ⟨_, _, _, _, hwait, _, _, rfl⟩ |
    ⟨_, _, _, _, _, _, _, _, _, rfl⟩
  · cases hPH
  · exact ⟨rfl, .inr (by simp [State.waitStart_of_PH hissue, hrst])⟩
  · exact ⟨rfl, .inl hwait⟩
  · cases hPH

/-- From the most recent request up to a cycle in the WAIT phase `S` is the same (R117): backwards from that cycle, each cycle
before it stays in the WAIT phase until the one that made the request. -/
theorem S_eq_since_request (hnone : ∀ m, r < m → m < n → ¬ RequestAt σ s m) (ht : InCycle σ s n t)
    (hPH : t.PH = some .wait) {m : Nat} {w : State} (hrm : r ≤ m) (hmn : m ≤ n) (hw : InCycle σ s m w) : w.S = t.S := by
  induction n generalizing t with
  | zero =>
    obtain rfl : m = 0 := Nat.le_zero.1 hmn
    rw [hw.unique ht]
  | succ n ih =>
    rcases hmn.lt_or_eq with hlt | rfl
    case inr => rw [hw.unique ht]
    case inl =>
      have hmn : m ≤ n := Nat.le_of_lt_succ hlt
      obtain ⟨u, t', hu, hstep, htS, htPH⟩ := ht.exists_before
      obtain ⟨huS, hwait | hrequest⟩ := step_into_wait hstep (htPH.trans hPH)
      · exact (ih (fun i hi hin => hnone i hi (hin.trans n.lt_succ_self)) hu hwait hmn).trans (huS.symm.trans htS)
      · obtain rfl : m = n := by
          by_contra hne
          exact hnone n (by omega) n.lt_succ_self ⟨u, hu, hrequest⟩
        rw [hw.unique hu, ← huS, htS]

end Visit

/-- Settles O47: the honest timer names the most recent request, `S` has not changed since, and the request was for the dwell of
that `S`. -/
theorem dwellIsHonoured : Obligations.DwellIsHonoured := by
  unfold Obligations.DwellIsHonoured
  intro s σ completed hrun _ hhonest n t v ht hfetch
  obtain ⟨-, hPH, hdone, -⟩ := State.fetch_eq_transition_iff.1 hfetch
  obtain ⟨r, ⟨hrn, ⟨u, hu, hstart⟩, hnone⟩, hcompleted⟩ := hhonest n t ht hPH (ht.stim_eq ▸ hdone)
  have hsame {m : Nat} {w : State} : r ≤ m → m ≤ n → InCycle σ s m w → w.S = t.S := S_eq_since_request hnone ht hPH
  obtain ⟨code, hS, hlegal⟩ := (hrun.of_inCycle hu).exists_code
  obtain ⟨_, _, ticks, _, _, hticks⟩ := u.hw.exists_fields hlegal
  refine ⟨r, u, ticks, hrn, hcompleted, hu, hstart, hsame le_rfl hrn.le hu, State.waitTicks_of_dwell hS hticks, ?_,
    fun m w => hsame⟩
  intro c hc
  rwa [Option.some.inj (hc.symm.trans hS)]

end Sys2Proof.Machine
end

section
/-!
Totality: a step answers a next state or a fault of R141, and after a reset at the first edge an admitted block never faults (R114,
R141, R142, R163).
-/

namespace Sys2Proof.Machine

/-- Settles O22: a reset completes, and otherwise the registers are unwritten, illegal or legal: a model fault on the first two, a
next state on the last. -/
theorem noStepRefuses : Obligations.NoStepRefuses := by
  unfold Obligations.NoStepRefuses
  intro s r h
  cases hrst : stimRst s.stim with
  | true => cases (step_of_rst hrst).symm.trans h
  | false =>
    rcases s.registers_cases with hunwritten | ⟨code, ph, hS, hPH, hillegal⟩ | ⟨code, ph, hS, hPH, hlegal⟩
    · cases (step_of_unwritten hrst hunwritten).symm.trans h
    · cases (step_of_illegal hrst hS hPH hillegal).symm.trans h
    · obtain ⟨t, hstep⟩ := exists_step_of_legal hS hPH hlegal
      cases hstep.symm.trans h

/-- After a first cycle that completes, the run of an endless sequence is the run of what follows its first word. -/
theorem runStream_of_cycleWith {σ : Nat → StimWord} {s t : State} (h : cycleWith (σ 0) s = .next t) (n : Nat) :
    runStream σ s (n + 1) = runStream (fun i => σ (i + 1)) t n := by
  induction n with
  | zero => exact h
  | succ n ih => rw [runStream, ih, runStream]

/-- In the unwritten state an admitted block meets the invariant (R36, R163). -/
theorem State.powerOn_inv {b : Build} (h : b.wellFormed = true) : (State.powerOn b).Inv := ⟨h, rfl, rfl⟩

/-- Settles O38: the first edge leaves a running block, which runs on under every sequence, and every cycle keeps `S` in `Reach` and
the ROMs. -/
theorem noFaultAfterReset : Obligations.NoFaultAfterReset := by
  unfold Obligations.NoFaultAfterReset
  intro b σ hwf hreset n
  have hfirst : cycleWith (σ 0) (State.powerOn b) = .next _ := step_of_rst (s := (State.powerOn b).drive [σ 0]) hreset
  have hrunning := (stepKeepsTheInvariant ((State.powerOn b).drive [σ 0]) _ (State.powerOn_inv hwf) hfirst).2
  obtain ⟨t, hrest, ht⟩ := hrunning.exists_runStream (fun i => σ (i + 1)) n
  have hrun : runStream σ (State.powerOn b) (n + 1) = .next t := (runStream_of_cycleWith hfirst n).trans hrest
  obtain ⟨hreach, hhw⟩ := runStream_keeps (P := fun s => s.Reachable ∧ s.hw = b)
    (fun τ s _ hs h => step_keeps_reachable_hw (s := s.drive [τ]) hs h) ⟨State.powerOn_reachable b, rfl⟩ hrun
  exact ⟨t, hrun, ht, hreach, hhw⟩

end Sys2Proof.Machine
end

section
/-!
The reset protocol: one reset edge is enough from every state, and more change nothing further (R160, R161).
-/

namespace Sys2Proof.Machine

section Reset

variable {s : State} {words : List StimWord}

/-- On the block a reset edge has left, more reset edges change nothing further (R160). -/
theorem runWords_resets (hS : s.S = some 0) (hPH : s.PH = some .issue) (hwords : ∀ σ ∈ words, stimRst σ = true) :
    runWords words s = .next { s with stimulus := [], cycle := s.cycle + words.length } := by
  induction words generalizing s with
  | nil => rfl
  | cons σ words ih =>
    obtain ⟨hσ, hrest⟩ := List.forall_mem_cons.1 hwords
    have hcycle : cycleWith σ s = .next ((s.drive [σ]).writeLoop 0 .issue).tick := step_of_rst (s := s.drive [σ]) hσ
    rw [runWords_cons_of_cycleWith hcycle, ih rfl rfl hrest, List.length_cons, Nat.add_comm words.length, ← Nat.add_assoc]
    simp only [State.tick, State.writeLoop, State.drive, hS, hPH]

/-- With `PH` in ISSUE, a cycle without reset performs ISSUE (R67). -/
theorem State.fetch_of_issue (hPH : s.PH = some .issue) (hrst : stimRst s.stim = false) : s.fetch = some .issue := by
  simp [State.fetch_eq, hrst, hPH]

end Reset

/-- Settles O34: the first reset edge writes both registers, the further ones change nothing, and `PH` in ISSUE selects the operation
of the cycle without reset. -/
theorem resetFromEveryState : Obligations.ResetFromEveryState := by
  unfold Obligations.ResetFromEveryState
  intro s words hne hwords
  obtain ⟨σ, rest, rfl⟩ := List.exists_cons_of_ne_nil hne
  obtain ⟨hσ, hrest⟩ := List.forall_mem_cons.1 hwords
  have hfirst : cycleWith σ s = .next ((s.drive [σ]).writeLoop 0 .issue).tick := step_of_rst (s := s.drive [σ]) hσ
  have hrun := (runWords_cons_of_cycleWith hfirst rest).trans (runWords_resets rfl rfl hrest)
  exact ⟨_, hrun, rfl, rfl, rfl, fun τ hτ => State.fetch_of_issue rfl hτ⟩

end Sys2Proof.Machine
end

section
/-!
The words written out: the host's reading of an operation's number at every width, and the value of a stimulus word (R67, R70).
-/

namespace Sys2Proof

section HostReading

variable {nbits : Nat}

/-- Read from at least its own six bits, an operation's word stands for the operation. -/
theorem decodeTableWord_encode (h : 6 ≤ nbits) (i : Instr) : decodeTableWord nbits (encode i).toNat = some i := by
  have hfits : (encode i).toNat < 2 ^ nbits := (encode i).isLt.trans_le (Nat.pow_le_pow_right two_pos h)
  simp only [decodeTableWord, Nat.mod_eq_of_lt hfits, decodeNat_toNat, decodeWord_encode]

/-- A number read with a bit above bit 5 is no operation word. -/
theorem decodeTableWord_tooWide {w : Nat} (h : 64 ≤ w % 2 ^ nbits) : decodeTableWord nbits w = none := by
  simp only [decodeTableWord, decodeNat, if_neg (Nat.not_lt.2 h)]

end HostReading

/-- The stimulus word has the value 16*rst + 8*wait_done + v (R70). -/
theorem stimWord_toNat (rst done : Bool) (v : InVec) :
    (stimWord rst done v).toNat = 16 * rst.toNat + 8 * done.toNat + v.toNat := by
  rw [stimWord, packInputs_vec, BitVec.toNat_append, ← Nat.shiftLeft_add_eq_or_of_lt v.isLt]
  cases rst <;> cases done <;> rfl

/-- Settles O2: five of the numbers are operations' words, and the last has bit 6 set. -/
theorem writtenOutWordsDecode : Obligations.WrittenOutWordsDecode := by
  unfold Obligations.WrittenOutWordsDecode
  have hwide : 6 ≤ 8 := by decide
  refine ⟨?reset, ?issue, ?waitHold, ?transition, ?pedestrian, ?tooWide⟩
  case reset => exact decodeTableWord_encode hwide .reset
  case issue => exact decodeTableWord_encode hwide .issue
  case waitHold => exact decodeTableWord_encode hwide .waitHold
  case transition => exact decodeTableWord_encode hwide (.transition 0b000)
  case pedestrian => exact decodeTableWord_encode le_rfl (.transition 0b100)
  case tooWide => exact decodeTableWord_tooWide (by decide)

/-- Settles O7, by the word's value and its three fields. -/
theorem stimulusWordFields : Obligations.StimulusWordFields := by
  unfold Obligations.StimulusWordFields
  intro rst done v
  exact ⟨stimWord_toNat rst done v, stimRst_stimWord rst done v, stimDone_stimWord rst done v, stimVec_stimWord rst done v⟩

end Sys2Proof
end

section
/-!
The state after reset and its configuration: the parameters and the table pass the build check whatever the constants are, and
the settled entries are the ROM's (R34, R35, R85, R86, R142).
-/

namespace Sys2Proof

/-- The role indices are 5 and up in the order the constant `Config.roles` gives. -/
theorem Config.params_roleIndices :
    Config.params.roleIndices = ((List.finRange 7).map Config.roles).map fun k => 5 + k.val :=
  rfl

/-- The hardware's parameters meet R10 and R89, whatever the constants are. -/
theorem Config.params_wellFormed : Config.params.wellFormed = true := by
  have hroles : Config.params.roleIndices.Perm ((List.finRange 7).map fun k => 5 + k.val) := by
    rw [Config.params_roleIndices]
    exact (Equiv.Perm.map_finRange_perm Config.roles).map _
  exact (Params.wellFormed_iff _).2 ⟨Nat.le_add_left .., Nat.le_add_left .., Nat.le_add_left .., hroles⟩

/-- An entry of the hardware's table is the settled one where there is one (log 5). -/
theorem hardwareTable_next (s : Fin 12) (v : Fin 8) :
    (hardwareTable.rows[s.val]).next[v.val] = BitVec.ofNat 4 ((settledEntry s v).getD (Config.openNext s v)).val := by
  simp [hardwareTable]

/-- The hardware's table passes the ROM check: every entry is the code of an index below 12 (R44). -/
theorem hardwareTable_romValid : (Build.ofTable Config.params hardwareTable).romValid = true := by
  rw [Build.ofTable_romValid_iff]
  intro s v
  rw [hardwareTable_next, BitVec.toNat_ofNat]
  exact (Nat.mod_le ..).trans_lt (Fin.isLt _)

/-- The hardware's configuration is admitted (R142). -/
theorem hardware_wellFormed : (Build.ofTable Config.params hardwareTable).wellFormed = true :=
  Bool.and_eq_true_iff.2 ⟨Config.params_wellFormed, hardwareTable_romValid⟩

namespace Machine

/-- The ROM of the state after reset answers a settled entry (R85, R86). -/
theorem State.reset_next_of_settled {s n : Fin 12} {v : InVec} (h : settledEntry s v.toFin = some n) :
    State.reset.hw.next (BitVec.ofNat 4 s.val) v = some (BitVec.ofNat 4 n.val) := by
  obtain ⟨_, _, _, hnext⟩ := builtRomsHoldTheTable Config.params hardwareTable s v
  have hentry := hardwareTable_next s v.toFin
  rw [h, Option.getD_some] at hentry
  exact hnext.trans (congrArg some hentry)

/-- Settles O31: the configuration is admitted, the reset wrote the legal code 0 to `S`, and `Reach` starts there. -/
theorem resetMeetsTheInvariant : Obligations.ResetMeetsTheInvariant := by
  unfold Obligations.ResetMeetsTheInvariant
  have hreach : State.reset.Reachable := by
    rintro code ⟨⟩
    exact .start
  exact ⟨State.running_of_registers hardware_wellFormed rfl rfl (code := 0) (by decide), hreach⟩

/-- Settles O32, by the settled entries of R85. -/
theorem resetTableHasTheIdleCycle : Obligations.ResetTableHasTheIdleCycle := by
  unfold Obligations.ResetTableHasTheIdleCycle
  exact ⟨State.reset_next_of_settled (s := 0) (n := 1) rfl, State.reset_next_of_settled (s := 1) (n := 2) rfl,
    State.reset_next_of_settled (s := 2) (n := 3) rfl, State.reset_next_of_settled (s := 3) (n := 0) rfl⟩

/-- Settles O33: the settled entry of R86, and one iteration without a cycle of waiting that samples its vector. -/
theorem southPedestrianIsAcknowledged : Obligations.SouthPedestrianIsAcknowledged := by
  unfold Obligations.SouthPedestrianIsAcknowledged
  have hnext : State.reset.hw.next 0 0b100 = some 4 := State.reset_next_of_settled (s := 0) (n := 4) rfl
  have hrun := runWords_iteration (s := State.reset) (first := 0x00) (last := 0x0C) (holds := []) rfl rfl rfl (by simp) rfl rfl
    hnext
  exact ⟨hnext, _, hrun, rfl, rfl⟩

end Machine

end Sys2Proof
end
